-- ==== Sys2Proof/Word.lean ====
section
/-! DEFINITION. The words of the block: a byte, and the 35-bit transaction word (R8, R60). -/

namespace Sys2Proof

/-- A byte: an unsigned 8-bit value, bit 0 the least significant (R8). -/
abbrev Byte := BitVec 8

/-- A transaction word `T`: `T[34:32]` is OPSEL, `T[31:0]` is DATA (R60). -/
abbrev TransWord := BitVec 35

end Sys2Proof
end

