-- ==== Sys2Proof/Syntax.lean ====
section
/-! DEFINITION. The transactions of the block, one constructor per row of spec/opcode_table.json (R61, R63, R76). -/

namespace Sys2Proof

/-- A transaction form with the operands that some rule reads. The cable id, the unused packet slots, the bits
DATA[31:3] of RENDER and the whole DATA of the control and reserved forms are read by no rule (R64, R65, R67, R68)
and are no operands (log entry 13). -/
inductive Instr where
  /-- FEED with CIN 0x0, ignored (R88). -/
  | ign0
  /-- FEED with CIN 0x1, ignored (R88). -/
  | ign1
  /-- FEED with CIN 0x2, ignored (R88). -/
  | ign2
  /-- FEED with CIN 0x3, ignored (R88). -/
  | ign3
  /-- FEED with CIN 0x4: start or continue a SysEx message (R82). -/
  | sxCont (b1 b2 b3 : Byte)
  /-- FEED with CIN 0x5: end a SysEx message with one byte (R83). -/
  | sxEnd1 (b1 : Byte)
  /-- FEED with CIN 0x6: end a SysEx message with two bytes (R84). -/
  | sxEnd2 (b1 b2 : Byte)
  /-- FEED with CIN 0x7: end a SysEx message with three bytes (R85). -/
  | sxEnd3 (b1 b2 b3 : Byte)
  /-- FEED with CIN 0x8, ignored (R88). -/
  | ign8
  /-- FEED with CIN 0x9, ignored (R88). -/
  | ign9
  /-- FEED with CIN 0xA, ignored (R88). -/
  | ignA
  /-- FEED with CIN 0xB, ignored (R88). -/
  | ignB
  /-- FEED with CIN 0xC, ignored (R88). -/
  | ignC
  /-- FEED with CIN 0xD: load a channel's peak level from packet byte 2 (R66, R120). -/
  | pressure (b2 : Byte)
  /-- FEED with CIN 0xE, ignored (R88). -/
  | ignE
  /-- FEED with CIN 0xF, ignored (R88). -/
  | ignF
  /-- RENDER of channel `ch` (R67, R121). -/
  | render (ch : BitVec 3)
  /-- CLRDIRTY (R140). -/
  | clrDirty
  /-- RESET (R141). -/
  | reset
  /-- The reserved OPSEL 4 (R69, R142). -/
  | rsv4
  /-- The reserved OPSEL 5 (R69, R142). -/
  | rsv5
  /-- The reserved OPSEL 6 (R69, R142). -/
  | rsv6
  /-- The reserved OPSEL 7 (R69, R142). -/
  | rsv7
  deriving DecidableEq, Repr

end Sys2Proof
end

