-- ==== Sys2Proof/WellFormed.lean ====
section
/-! DEFINITION. Which terms of `Instr` are transactions of the block (R11, R69). -/

namespace Sys2Proof

/-- A well-formed instruction is a transaction: FEED, RENDER, CLRDIRTY or RESET. A word with a reserved OPSEL
"spells no transaction" (R69). Every operand's type is exactly its field's width (R66, R67), so there is no other check. -/
def WellFormed : Instr → Bool
  | .ign0 | .ign1 | .ign2 | .ign3 => true
  | .sxCont _ _ _ | .sxEnd1 _ | .sxEnd2 _ _ | .sxEnd3 _ _ _ => true
  | .ign8 | .ign9 | .ignA | .ignB | .ignC => true
  | .pressure _ => true
  | .ignE | .ignF => true
  | .render _ | .clrDirty | .reset => true
  | .rsv4 | .rsv5 | .rsv6 | .rsv7 => false

end Sys2Proof
end

