-- ==== Sys2Proof/Decode.lean ====
section
/-! DEFINITION. Decoding a transaction word (R60 to R69), the encoder beside it, and the opcode table (R76). -/

namespace Sys2Proof

/-! ### Fields of a transaction word (R60, R62) -/

/-- OPSEL = T[34:32]. -/
def opselField (w : TransWord) : BitVec 3 := w.extractLsb' 32 3

/-- CABLE = DATA[31:28], read by no rule (R64). -/
def cableField (w : TransWord) : BitVec 4 := w.extractLsb' 28 4

/-- CIN = DATA[27:24]. -/
def cinField (w : TransWord) : BitVec 4 := w.extractLsb' 24 4

/-- B1 = DATA[23:16]. -/
def b1Field (w : TransWord) : Byte := w.extractLsb' 16 8

/-- B2 = DATA[15:8]. -/
def b2Field (w : TransWord) : Byte := w.extractLsb' 8 8

/-- B3 = DATA[7:0]. -/
def b3Field (w : TransWord) : Byte := w.extractLsb' 0 8

/-- CH = DATA[2:0] of a RENDER (R67). -/
def chField (w : TransWord) : BitVec 3 := w.extractLsb' 0 3

/-! ### The decoder -/

/-- The FEED form that the CIN selects: "the CIN alone selects the action; all 16 values are defined" (R63). -/
def decodeFeed (w : TransWord) : Instr :=
  match (cinField w).toNat with
  | 0x0 => .ign0
  | 0x1 => .ign1
  | 0x2 => .ign2
  | 0x3 => .ign3
  | 0x4 => .sxCont (b1Field w) (b2Field w) (b3Field w)
  | 0x5 => .sxEnd1 (b1Field w)
  | 0x6 => .sxEnd2 (b1Field w) (b2Field w)
  | 0x7 => .sxEnd3 (b1Field w) (b2Field w) (b3Field w)
  | 0x8 => .ign8
  | 0x9 => .ign9
  | 0xA => .ignA
  | 0xB => .ignB
  | 0xC => .ignC
  | 0xD => .pressure (b2Field w)
  | 0xE => .ignE
  | _ => .ignF

/-- The form that a transaction word spells: OPSEL selects (R61). Total: exactly one row of the table matches any
35-bit word (R76); the last arm is OPSEL 7. -/
def decode (w : TransWord) : Instr :=
  match (opselField w).toNat with
  | 0 => decodeFeed w
  | 1 => .render (chField w)
  | 2 => .clrDirty
  | 3 => .reset
  | 4 => .rsv4
  | 5 => .rsv5
  | 6 => .rsv6
  | _ => .rsv7

/-- Why a number is no transaction word. -/
inductive DecodeReject where
  /-- It has a bit above bit 34 (R60). -/
  | widerThanTransaction
  deriving DecidableEq, Repr

/-- Decode a number as a transaction word. A number that does not fit the 35 bits is rejected by name. -/
def decodeNumber (w : Nat) : Except DecodeReject Instr :=
  if w < 2 ^ 35 then .ok (decode (BitVec.ofNat 35 w)) else .error .widerThanTransaction

/-- The host's question: the instruction that the decoder reads from an instruction whose bits are `w`. The whole
transaction is one word, so nothing is laid out further whatever `nbits` is. -/
def decodeTableWord (_nbits w : Nat) : Option Instr :=
  match decodeNumber w with
  | .ok i => some i
  | .error _ => none

/-! ### The encoder -/

/-- A word from its OPSEL and DATA (R60). -/
def wordOf (opsel : BitVec 3) (data : BitVec 32) : TransWord := opsel ++ data

/-- A FEED word from its packet bytes: `FEED b0 b1 b2 b3` of R75, byte0 in DATA[31:24] (R41, R62). -/
def feedWord (b0 b1 b2 b3 : Byte) : TransWord := wordOf 0 (b0 ++ b1 ++ b2 ++ b3)

/-- The word of an instruction, written as R75 writes it: cable 0, don't-care bytes 00, and byte1 of a
channel-pressure packet 0xD0 (which the block ignores). The reserved forms are written with DATA 0. -/
def encode : Instr → TransWord
  | .ign0 => feedWord 0x00 0 0 0
  | .ign1 => feedWord 0x01 0 0 0
  | .ign2 => feedWord 0x02 0 0 0
  | .ign3 => feedWord 0x03 0 0 0
  | .sxCont b1 b2 b3 => feedWord 0x04 b1 b2 b3
  | .sxEnd1 b1 => feedWord 0x05 b1 0 0
  | .sxEnd2 b1 b2 => feedWord 0x06 b1 b2 0
  | .sxEnd3 b1 b2 b3 => feedWord 0x07 b1 b2 b3
  | .ign8 => feedWord 0x08 0 0 0
  | .ign9 => feedWord 0x09 0 0 0
  | .ignA => feedWord 0x0A 0 0 0
  | .ignB => feedWord 0x0B 0 0 0
  | .ignC => feedWord 0x0C 0 0 0
  | .pressure b2 => feedWord 0x0D 0xD0 b2 0
  | .ignE => feedWord 0x0E 0 0 0
  | .ignF => feedWord 0x0F 0 0 0
  | .render ch => wordOf 1 (0#29 ++ ch)
  | .clrDirty => wordOf 2 0
  | .reset => wordOf 3 0
  | .rsv4 => wordOf 4 0
  | .rsv5 => wordOf 5 0
  | .rsv6 => wordOf 6 0
  | .rsv7 => wordOf 7 0

/-- The bits of an instruction's word that some rule reads: OPSEL, the CIN of a FEED, and the operand fields
(R63 to R68; bit 15 of PRESSURE, B2[7], is ignored by R66 but belongs to the operand byte). -/
def careMask : Instr → TransWord
  | .ign0 | .ign1 | .ign2 | .ign3 => 0x70F000000
  | .sxCont _ _ _ => 0x70FFFFFFF
  | .sxEnd1 _ => 0x70FFF0000
  | .sxEnd2 _ _ => 0x70FFFFF00
  | .sxEnd3 _ _ _ => 0x70FFFFFFF
  | .ign8 | .ign9 | .ignA | .ignB | .ignC => 0x70F000000
  | .pressure _ => 0x70F00FF00
  | .ignE | .ignF => 0x70F000000
  | .render _ => 0x700000007
  | .clrDirty | .reset => 0x700000000
  | .rsv4 | .rsv5 | .rsv6 | .rsv7 => 0x700000000

/-! ### The opcode table (R76) -/

/-- A row of spec/opcode_table.json: a word `w` selects it iff `w & mask = match` (R76). -/
structure OpcodeRow where
  /-- The row's mnemonic, letter for letter. -/
  mnemonic : String
  /-- The row's `match`. -/
  pattern : TransWord
  /-- The row's `mask`. -/
  mask : TransWord
  deriving DecidableEq, Repr

/-- The 23 rows, in the table's order. -/
def opcodeTable : List OpcodeRow :=
 [ { mnemonic := "IGN0", pattern := 0x000000000, mask := 0x70F000000 },
   { mnemonic := "IGN1", pattern := 0x001000000, mask := 0x70F000000 },
   { mnemonic := "IGN2", pattern := 0x002000000, mask := 0x70F000000 },
   { mnemonic := "IGN3", pattern := 0x003000000, mask := 0x70F000000 },
   { mnemonic := "SX_CONT", pattern := 0x004000000, mask := 0x70F000000 },
   { mnemonic := "SX_END1", pattern := 0x005000000, mask := 0x70F000000 },
   { mnemonic := "SX_END2", pattern := 0x006000000, mask := 0x70F000000 },
   { mnemonic := "SX_END3", pattern := 0x007000000, mask := 0x70F000000 },
   { mnemonic := "IGN8", pattern := 0x008000000, mask := 0x70F000000 },
   { mnemonic := "IGN9", pattern := 0x009000000, mask := 0x70F000000 },
   { mnemonic := "IGNA", pattern := 0x00A000000, mask := 0x70F000000 },
   { mnemonic := "IGNB", pattern := 0x00B000000, mask := 0x70F000000 },
   { mnemonic := "IGNC", pattern := 0x00C000000, mask := 0x70F000000 },
   { mnemonic := "PRESSURE", pattern := 0x00D000000, mask := 0x70F000000 },
   { mnemonic := "IGNE", pattern := 0x00E000000, mask := 0x70F000000 },
   { mnemonic := "IGNF", pattern := 0x00F000000, mask := 0x70F000000 },
   { mnemonic := "RENDER", pattern := 0x100000000, mask := 0x700000000 },
   { mnemonic := "CLRDIRTY", pattern := 0x200000000, mask := 0x700000000 },
   { mnemonic := "RESET", pattern := 0x300000000, mask := 0x700000000 },
   { mnemonic := "RSV4", pattern := 0x400000000, mask := 0x700000000 },
   { mnemonic := "RSV5", pattern := 0x500000000, mask := 0x700000000 },
   { mnemonic := "RSV6", pattern := 0x600000000, mask := 0x700000000 },
   { mnemonic := "RSV7", pattern := 0x700000000, mask := 0x700000000 } ]

/-- `w & mask = match` (R76). -/
def OpcodeRow.selectedBy (r : OpcodeRow) (w : TransWord) : Bool := w &&& r.mask == r.pattern

/-- The mnemonic of a form, as the table spells it. -/
def mnemonic : Instr → String
  | .ign0 => "IGN0"
  | .ign1 => "IGN1"
  | .ign2 => "IGN2"
  | .ign3 => "IGN3"
  | .sxCont _ _ _ => "SX_CONT"
  | .sxEnd1 _ => "SX_END1"
  | .sxEnd2 _ _ => "SX_END2"
  | .sxEnd3 _ _ _ => "SX_END3"
  | .ign8 => "IGN8"
  | .ign9 => "IGN9"
  | .ignA => "IGNA"
  | .ignB => "IGNB"
  | .ignC => "IGNC"
  | .pressure _ => "PRESSURE"
  | .ignE => "IGNE"
  | .ignF => "IGNF"
  | .render _ => "RENDER"
  | .clrDirty => "CLRDIRTY"
  | .reset => "RESET"
  | .rsv4 => "RSV4"
  | .rsv5 => "RSV5"
  | .rsv6 => "RSV6"
  | .rsv7 => "RSV7"

end Sys2Proof
end

