-- ==== Sys2Proof/Config.lean ====
section
/-! DEFINITION. The configuration parameters of R6, and the values no source gives as constants without a body. -/

namespace Sys2Proof

/-- The external render trigger (R6, RENDER_POLICY): "informative only, the block does not read it". -/
inductive RenderPolicy where
  /-- Render whenever the dirty flag is set. -/
  | onDirty
  /-- Render unconditionally every `n` ticks. -/
  | everyNTicks (n : Nat)
  deriving DecidableEq, Repr, Inhabited

/-- The configuration parameters of R6, in the order of its table. That they are held in the state is log entry 5. -/
structure Params where
  /-- CAP: capacity of the accumulation buffer in bytes. -/
  cap : Nat
  /-- ROWS: text rows. -/
  rows : Nat
  /-- STRIPS: channel strips. -/
  strips : Nat
  /-- CHARS: characters per strip per row. -/
  chars : Nat
  /-- TEXT_SIZE: cells of the text buffer. -/
  textSize : Nat
  /-- CHANNELS: peak-meter channels. -/
  channels : Nat
  /-- BAR_WIDTH (W): pixel columns per meter bar. -/
  barWidth : Nat
  /-- LEVEL_MAX (LMAX): clamp bound and divisor of the level-to-extent map. -/
  levelMax : Nat
  /-- DECAY_STEP (STEP): amount the decay register moves per render. -/
  decayStep : Nat
  /-- SYSEX_START: required first message byte. -/
  sysexStart : Byte
  /-- CMD_ID: required byte at message index CMD_INDEX. -/
  cmdId : Byte
  /-- CMD_INDEX: index of the command byte. -/
  cmdIndex : Nat
  /-- OFFSET_INDEX: index of the offset byte. -/
  offsetIndex : Nat
  /-- PAYLOAD_INDEX: index of the first payload byte. -/
  payloadIndex : Nat
  /-- MIN_LEN: minimum message length for the validity predicate. -/
  minLen : Nat
  /-- TERMINATOR: payload terminator byte. -/
  terminator : Byte
  /-- FILL_BYTE: column value of a lit column, OPEN. -/
  fillByte : Byte
  /-- BORDER_BYTE: column value of the border pattern, OPEN. -/
  borderByte : Byte
  /-- TEXT_INIT: reset contents of the text buffer, OPEN. -/
  textInit : List Byte
  /-- RENDER_POLICY: read by no rule (R6, R131). -/
  renderPolicy : RenderPolicy
  /-- LEN_W: width of the LEN register in bits. -/
  lenWidth : Nat
  /-- DECAY_W: width of each DECAY register in bits, two's complement. -/
  decayWidth : Nat
  deriving DecidableEq, Repr

/-- FILL_BYTE of the reference instance: OPEN in R6, any value (I5, D19; log entry 6). -/
opaque Config.fillByte : Byte

/-- BORDER_BYTE of the reference instance: OPEN in R6, any value (I5, D19; log entry 6). -/
opaque Config.borderByte : Byte

/-- TEXT_INIT of the reference instance, cell by cell: OPEN in R6, any value (I4, D18; log entry 6). -/
opaque Config.textInitByte : Nat → Byte

/-- RENDER_POLICY of the reference instance: external in R6, any value (log entry 6). -/
opaque Config.renderPolicy : RenderPolicy

/-- The free value of an unspecified byte: the draw's number and the byte's address (R23, I3; log entry 4). -/
opaque Config.unspecifiedByte : Nat → Nat → Byte

end Sys2Proof
end

