-- ==== Sys2Proof/Machine/Memory.lean ====
section
/-! DEFINITION. The two byte arrays BUF and TEXT as lists of cells in one canonical form, and the reads and writes of
R9 over them (R40, R46). -/

namespace Sys2Proof.Machine

/-- The bytes of one address space, as address and byte pairs. In canonical form (`Memory.wf`) the addresses rise
strictly. An unlisted address holds no stored value, so no entry is ever redundant and equal memories are equal lists. -/
abbrev Memory := List Host.Cell

/-- The canonical form: every address is below all later ones. -/
def Memory.wf : Memory → Bool
  | [] => true
  | (a, _) :: m => m.all (fun c => decide (a < c.1)) && Memory.wf m

/-- The stored byte at an address, if the address is listed. -/
def Memory.read? : Memory → Nat → Option Byte
  | [], _ => none
  | (x, v) :: m, a => if a = x then some v else Memory.read? m a

/-- A read that always answers. THE ONE DEFINITION of what an unlisted address reads as: the free value of the draw
(R23, I3; log entry 4). -/
def Memory.read (m : Memory) (draw a : Nat) : Byte :=
  (m.read? a).getD (Config.unspecifiedByte draw a)

/-- Store one byte, keeping the addresses in rising order. -/
def Memory.write : Memory → Nat → Byte → Memory
  | [], a, b => [(a, b)]
  | (x, v) :: m, a, b =>
    if a < x then (a, b) :: (x, v) :: m
    else if a = x then (a, b) :: m
    else (x, v) :: Memory.write m a b

/-- Store a list of bytes from an address upward, in increasing index order (`MemWrite`, R9). -/
def Memory.writeList : Memory → Nat → List Byte → Memory
  | m, _, [] => m
  | m, a, b :: bs => Memory.writeList (m.write a b) (a + 1) bs

/-- Read `n` bytes from an address upward (`MemRead`, R9). -/
def Memory.readList (m : Memory) (draw a n : Nat) : List Byte :=
  (List.range n).map (fun k => m.read draw (a + k))

/-- Forget every byte at or above `n`: such bytes of BUF have no meaning any more (R23). -/
def Memory.truncate (m : Memory) (n : Nat) : Memory :=
  m.filter (fun c => decide (c.1 < n))

/-- The contents of TEXT after reset: every one of the TEXT_SIZE cells listed, holding its byte of TEXT_INIT (R170). A
cell for which a shorter TEXT_INIT gives no byte holds a free value (log entry 6). -/
def resetText (c : Params) (draw : Nat) : Memory :=
  (List.range c.textSize).map (fun a => (a, c.textInit.getD a (Config.unspecifiedByte draw a)))

end Sys2Proof.Machine
end

