-- ==== Sys2Proof/Machine/Params.lean ====
section
/-! DEFINITION. The reference configuration (the defaults of R6), the validity of a configuration (R7), and what the
registers of a width that the configuration fixes can hold. -/

namespace Sys2Proof

/-- The default column of R6. The four values that R6 leaves OPEN or external are constants without a body. -/
def Params.reference : Params where
  cap := 255
  rows := 2
  strips := 8
  chars := 7
  textSize := 112
  channels := 8
  barWidth := 128
  levelMax := 12
  decayStep := 8
  sysexStart := 0xF0
  cmdId := 0x12
  cmdIndex := 5
  offsetIndex := 6
  payloadIndex := 7
  minLen := 7
  terminator := 0xF7
  fillByte := Config.fillByte
  borderByte := Config.borderByte
  textInit := (List.range 112).map Config.textInitByte
  renderPolicy := Config.renderPolicy
  lenWidth := 8
  decayWidth := 16

/-- R7, bound by bound. That FILL_BYTE and BORDER_BYTE are 8-bit values is their type. -/
def Params.valid (p : Params) : Bool := decide (
  1 ≤ p.cap ∧ p.cap ≤ 2 ^ p.lenWidth - 1 ∧
  p.textSize = p.rows * p.strips * p.chars ∧
  p.channels = 8 ∧
  1 ≤ p.levelMax ∧ p.levelMax ≤ 15 ∧
  1 ≤ p.barWidth ∧ 1 ≤ p.decayStep ∧
  p.barWidth + 2 * p.decayStep ≤ 2 ^ (p.decayWidth - 1) ∧
  max p.cmdIndex p.offsetIndex < p.minLen ∧
  p.payloadIndex = p.offsetIndex + 1)

/-- A number as a register of LEN_W bits holds it, unsigned (R6, R22). In a valid configuration every number that a rule
writes there fits, so this is the number itself (R10; log entry 7). -/
def Params.toLen (p : Params) (n : Nat) : Nat := n % 2 ^ p.lenWidth

/-- An integer as a DECAY register of DECAY_W bits holds it, two's complement (R6, R28). In a valid configuration every
integer that a run writes there fits, so this is the integer itself (R10, R129; log entry 7). -/
def Params.toDecay (p : Params) (d : Int) : Int := d.bmod (2 ^ p.decayWidth)

end Sys2Proof
end

