-- ==== Sys2Proof/Machine/State.lean ====
section
/-! DEFINITION. The state of the block (R20), the output record of a transaction (R74), the reasons a step can stop, and
the state after reset (R170). -/

namespace Sys2Proof.Machine

/-- The framing state STATE, 2 bits wide (R21). -/
inductive Framing where
  /-- Encoding 0: no message is being accumulated. -/
  | idle
  /-- Encoding 1: fragments of a message are in BUF. -/
  | accumulating
  /-- Encoding 2: a terminal fragment was appended; exists only inside a FEED (R21, R86). -/
  | ended
  /-- Encoding 3: "never written and is unreachable" (R21). -/
  | unused3
  deriving DecidableEq, Repr

/-- The condition codes of R150. None of them is a trap (R151, R152). -/
inductive Cond where
  /-- 0: done, nothing to report. -/
  | ok
  /-- 1: a completed message was written in full. -/
  | applied
  /-- 2: a completed message was truncated at the end of TEXT. -/
  | regionOverflow
  /-- 3: a completed message failed the validity predicate. -/
  | malformedPredicate
  /-- 4: a completed message holds no terminator. -/
  | malformedNoTerminator
  /-- 5: a fragment would have made LEN exceed CAP. -/
  | framingOverflow
  /-- 6: a channel-pressure packet loaded a level. -/
  | peakUpdated
  /-- 7: FEED with a CIN that the block ignores. -/
  | ignored
  deriving DecidableEq, Repr

/-- The output record of a done transaction (R74). -/
structure Out where
  /-- COND, 3 bits (its code is `Cond.code`). -/
  cond : Cond
  /-- MSG_VALID, 1 bit: this FEED completed a message. -/
  msgValid : Bool
  /-- MSG_LEN, LEN_W bits, written through `Params.toLen`: length of the completed message, else 0. -/
  msgLen : Nat
  /-- MSG: the completed message. -/
  msg : List Byte
  /-- WRITTEN, 7 bits: number of TEXT bytes written (log entry 12). -/
  written : BitVec 7
  /-- COLS: the pixel-column bitmap of a RENDER. -/
  cols : List Byte
  deriving DecidableEq, Repr

/-- Everything the block holds (R20), and four fields of the model's own: `cfg`, `out`, `pending`, `draws`
(log entries 1, 2, 4, 5). -/
structure State where
  /-- The configuration, fixed for the life of the instance (R6, R20). -/
  cfg : Params
  /-- STATE (R21). -/
  framing : Framing
  /-- LEN, unsigned, of the LEN_W bits that `cfg` gives; every write goes through `Params.toLen` (R6, R22). -/
  len : Nat
  /-- BUF: addresses 0 to CAP-1; only those below LEN hold meaning and are listed (R23). -/
  buf : Memory
  /-- TEXT: addresses 0 to TEXT_SIZE-1, every one listed (R25). -/
  text : Memory
  /-- LEVEL[0..7] (R27). -/
  level : Vector (BitVec 4) 8
  /-- DECAY[0..7], signed, two's complement of the DECAY_W bits that `cfg` gives; every write goes through
  `Params.toDecay` (R6, R28). -/
  decay : Vector Int 8
  /-- DIRTY (R30). -/
  dirty : Bool
  /-- The output record of the last transaction, none where the last step ran none (R74). -/
  out : Option Out
  /-- The transaction words issued by the host and not yet accepted, the next one first (R11, R50). -/
  pending : List TransWord
  /-- The number of the draw that unspecified bytes are taken from (R23, I3). -/
  draws : Nat
  deriving DecidableEq, Repr

/-- What a step could fault with. The block has no fault outcome (R12); this one makes the bounds checks of R81 and
R106 visible, and no step raises it (log entry 10). -/
inductive Fault where
  /-- A write to BUF at or above CAP. Raised by `State.writeBuf`. Safe: it is never reached. -/
  | bufBounds (address : Nat)
  /-- A write to TEXT at or above TEXT_SIZE. Raised by `State.writeText`. Safe: it is never reached. -/
  | textBounds (address : Nat)
  deriving DecidableEq, Repr

/-- What a transaction or an observation read is refused with (R12). -/
inductive Refusal where
  /-- An instruction without a meaning. Raised by no arm of `exec`. Safe. -/
  | notModelled (mnemonic : String)
  /-- A word with a reserved OPSEL 4 to 7 (R69, R142). Raised by the meanings of RSV4 to RSV7. Safe: the spec refuses it. -/
  | reservedTransaction (opsel : BitVec 3)
  /-- A configuration outside R7. Raised by every transaction but the reserved ones, by an idle step and by `observe`.
  Safe: the spec gives such a configuration no meaning (R7, R12, I8; log entries 9 and 19). -/
  | invalidConfiguration
  /-- STATE is Ended or 3 at a transaction boundary. Raised by every transaction but the reserved ones, by an idle step
  and by `observe`. Safe: the spec says that such a state is outside it (I6; log entries 9 and 19). -/
  | illegalFraming
  /-- An observation read of an unmapped address (R47, I9). Raised by `observe`. Safe: the spec refuses it. -/
  | unmappedObservation (address : BitVec 12)
  deriving DecidableEq, Repr

/-- The block right after power-on reset, in the reference configuration (R170): nothing of BUF is listed, so every
byte of it is unspecified. No transaction has run and none is waiting. -/
def State.reset : State where
  cfg := Params.reference
  framing := .idle
  len := 0
  buf := []
  text := resetText Params.reference 0
  level := Vector.replicate 8 0
  decay := Vector.replicate 8 0
  dirty := false
  out := none
  pending := []
  draws := 0

end Sys2Proof.Machine
end

