-- ==== Sys2Proof/Machine/Flags.lean ====
section
/-! DEFINITION. The numeric codes of STATE and COND (R21, R150), the output record's zero (R74), and how a transaction
drives it (R9, R150). The block has no other condition code than DIRTY (R31). -/

namespace Sys2Proof.Machine

/-- The 2-bit encoding of STATE (R21). -/
def Framing.code : Framing → BitVec 2
  | .idle => 0
  | .accumulating => 1
  | .ended => 2
  | .unused3 => 3

/-- The 3-bit encoding of COND (R150). -/
def Cond.code : Cond → BitVec 3
  | .ok => 0
  | .applied => 1
  | .regionOverflow => 2
  | .malformedPredicate => 3
  | .malformedNoTerminator => 4
  | .framingOverflow => 5
  | .peakUpdated => 6
  | .ignored => 7

/-- The record a transaction starts from: every field 0 or the empty list (R74). -/
def Out.zero : Out :=
  { cond := .ok, msgValid := false, msgLen := 0, msg := [], written := 0, cols := [] }

/-- The record driven so far by the transaction that is running. -/
def State.outNow (s : State) : Out := s.out.getD Out.zero

/-- Start a transaction's output record (the first line of R80, R121, R140 and R141). -/
def State.clearOut (s : State) : State := { s with out := some Out.zero }

/-- `raise Cond` and `out.COND <- Cond`: set the condition code of the running transaction. It is no trap: nothing is
saved and the transaction goes on (R9, R152). -/
def State.raise (c : Cond) (s : State) : State := { s with out := some { s.outNow with cond := c } }

/-- Drive MSG_VALID, MSG_LEN and MSG with a completed message (R86). -/
def State.driveMessage (m : List Byte) (s : State) : State :=
  { s with out := some { s.outNow with msgValid := true, msgLen := s.cfg.toLen m.length, msg := m } }

/-- Drive WRITTEN (R100). -/
def State.driveWritten (n : Nat) (s : State) : State :=
  { s with out := some { s.outNow with written := BitVec.ofNat 7 n } }

/-- Drive COLS (R121). -/
def State.driveCols (cols : List Byte) (s : State) : State :=
  { s with out := some { s.outNow with cols := cols } }

end Sys2Proof.Machine
end

