-- ==== Sys2Proof/Machine/Ops.lean ====
section
/-! DEFINITION. The shared operations over the registers: the frame of a transaction, the register writes, the checked
writes to BUF and TEXT, and the reset of R170. No exception is ever taken (R152), so none is modelled. -/

namespace Sys2Proof.Machine

/-! ### Register reads and writes -/

/-- `STATE <- f` (R21). -/
def State.setFraming (f : Framing) (s : State) : State := { s with framing := f }

/-- `LEN <- n` (R22). The bytes of BUF at or above `n` have no meaning from here on, so none of them stays listed (R23). -/
def State.setLen (n : Nat) (s : State) : State :=
  { s with len := s.cfg.toLen n, buf := s.buf.truncate n }

/-- `DIRTY <- b` (R30). -/
def State.setDirty (b : Bool) (s : State) : State := { s with dirty := b }

/-- `LEVEL[c]` (R27). -/
def State.levelOf (c : BitVec 3) (s : State) : BitVec 4 := s.level[c.toNat]'c.isLt

/-- `DECAY[c]` (R28). -/
def State.decayOf (c : BitVec 3) (s : State) : Int := s.decay[c.toNat]'c.isLt

/-- `LEVEL[c] <- l` (R27). -/
def State.setLevel (c : BitVec 3) (l : BitVec 4) (s : State) : State :=
  { s with level := s.level.set c.toNat l c.isLt }

/-- `DECAY[c] <- d`, kept to the register's width (R28). -/
def State.setDecay (c : BitVec 3) (d : Int) (s : State) : State :=
  { s with decay := s.decay.set c.toNat (s.cfg.toDecay d) c.isLt }

/-! ### The two byte arrays -/

/-- Put the contents of BUF. -/
def State.setBuf (m : Memory) (s : State) : State := { s with buf := m }

/-- Put the contents of TEXT. -/
def State.setText (m : Memory) (s : State) : State := { s with text := m }

/-- `MemWrite(BUF, a, n, bytes)` (R9, R81); an index at or above CAP does not exist (R40). -/
def State.writeBuf (a : Nat) (bs : List Byte) (s : State) : Except Fault State :=
  if bs.length = 0 ∨ a + bs.length ≤ s.cfg.cap then .ok (s.setBuf (s.buf.writeList a bs))
  else .error (.bufBounds (a + bs.length - 1))

/-- `MemWrite(TEXT, a, n, bytes)` (R9, R106); an index at or above TEXT_SIZE does not exist (R40). -/
def State.writeText (a : Nat) (bs : List Byte) (s : State) : Except Fault State :=
  if bs.length = 0 ∨ a + bs.length ≤ s.cfg.textSize then .ok (s.setText (s.text.writeList a bs))
  else .error (.textBounds (a + bs.length - 1))

/-- `BUF[a]` (R42, R47): the stored byte, or the free value where none is stored. -/
def State.bufByte (a : Nat) (s : State) : Byte := s.buf.read s.draws a

/-- `TEXT[a]` (R25, R47). -/
def State.textByte (a : Nat) (s : State) : Byte := s.text.read s.draws a

/-- `MemRead(BUF, 0, LEN)`: the message bytes accumulated so far (R42). -/
def State.message (s : State) : List Byte := s.buf.readList s.draws 0 s.len

/-! ### The append primitive (R81) -/

/-- What `Append` answers. -/
inductive AppendResult where
  /-- The bytes are in BUF and LEN counts them. -/
  | appended (s : State)
  /-- FramingOverflow: the buffer is emptied and the machine is Idle. -/
  | overflow (s : State)
  deriving DecidableEq, Repr

/-- `Append(bytes)`: the bound is checked for the whole fragment before any byte is written (R81, D9). -/
def append (bs : List Byte) (s : State) : Except Fault AppendResult :=
  if s.cfg.cap < s.len + bs.length then
    .ok (.overflow (((s.setLen 0).setFraming .idle).raise .framingOverflow))
  else
    match s.writeBuf s.len bs with
    | .error e => .error e
    | .ok t => .ok (.appended (t.setLen (s.len + bs.length)))

/-! ### Transactions -/

/-- A state in which a transaction runs: the configuration is valid (R7) and STATE is Idle or Accumulating, as it always
is between transactions (R21, I6). -/
abbrev State.Ready (s : State) : Prop :=
  s.cfg.valid = true ∧ (s.framing = .idle ∨ s.framing = .accumulating)

/-- Why the block has no meaning in a state: the configuration is invalid (R7, R12, I8), or STATE is Ended or 3 between
transactions (I6). Where both hold the configuration is named (log entry 9). -/
def State.refusal? (s : State) : Option Refusal :=
  if s.cfg.valid = true then
    if s.framing = .idle ∨ s.framing = .accumulating then none else some .illegalFraming
  else some .invalidConfiguration

/-- Run a body in a state in which the block has a meaning, and refuse in any other. -/
def guarded (s : State) (body : State → Except Fault State) : Host.Outcome State Fault Refusal :=
  match s.refusal? with
  | some r => .refused r
  | none =>
    match body s with
    | .ok t => .next t
    | .error e => .fault e

/-- The frame of every transaction: refused where the block has no meaning (R7, R12, I6, I8); otherwise the body runs
from a zero output record (R74). -/
def transact (s : State) (body : State → Except Fault State) : Host.Outcome State Fault Refusal :=
  guarded s (fun t => body t.clearOut)

/-- What a step does with no transaction waiting: nothing, and there is no output record (log entry 3). It is refused
where the block has no meaning, as a transaction is (R7; log entry 19). -/
def idle (s : State) : Host.Outcome State Fault Refusal :=
  guarded s (fun t => .ok { t with out := none })

/-- The reset values of R170, all at once. BUF is left with nothing listed: each byte any value. -/
def State.applyReset (s : State) : State :=
  { s with
    framing := .idle
    len := 0
    buf := []
    text := resetText s.cfg s.draws
    level := Vector.replicate 8 0
    decay := Vector.replicate 8 0
    dirty := false }

end Sys2Proof.Machine
end

