-- ==== Sys2Proof/Machine/HostOps.lean ====
section
/-! DEFINITION. The host control transactions and the reserved ones (R140 to R142). -/

namespace Sys2Proof.Machine

/-- CLRDIRTY: `DIRTY <- 0` (R140). -/
def clrDirtyBody (s : State) : Except Fault State := .ok (s.setDirty false)

/-- RESET: the reset values of R170, with a zero output record (R141). -/
def resetBody (s : State) : Except Fault State := .ok s.applyReset

/-- CLRDIRTY, OPSEL 2 (R140). -/
def execClrDirty (s : State) : Host.Outcome State Fault Refusal := transact s clrDirtyBody

/-- RESET, OPSEL 3 (R141). -/
def execReset (s : State) : Host.Outcome State Fault Refusal := transact s resetBody

/-- OPSEL 4: "the model has no next state for it" (R142). -/
def execRsv4 (_s : State) : Host.Outcome State Fault Refusal := .refused (.reservedTransaction 4)

/-- OPSEL 5: "the model has no next state for it" (R142). -/
def execRsv5 (_s : State) : Host.Outcome State Fault Refusal := .refused (.reservedTransaction 5)

/-- OPSEL 6: "the model has no next state for it" (R142). -/
def execRsv6 (_s : State) : Host.Outcome State Fault Refusal := .refused (.reservedTransaction 6)

/-- OPSEL 7: "the model has no next state for it" (R142). -/
def execRsv7 (_s : State) : Host.Outcome State Fault Refusal := .refused (.reservedTransaction 7)

end Sys2Proof.Machine
end

