-- ==== Sys2Proof/Machine/Ignored.lean ====
section
/-! DEFINITION. The FEED forms whose CIN the block ignores (R88). -/

namespace Sys2Proof.Machine

/-- IGNORED: no state is written and the condition code is IGNORED (R88). -/
def ignoredBody (s : State) : Except Fault State := .ok (s.raise .ignored)

/-- CIN 0x0 (R88). -/
def execIgn0 (s : State) : Host.Outcome State Fault Refusal := transact s ignoredBody

/-- CIN 0x1 (R88). -/
def execIgn1 (s : State) : Host.Outcome State Fault Refusal := transact s ignoredBody

/-- CIN 0x2 (R88). -/
def execIgn2 (s : State) : Host.Outcome State Fault Refusal := transact s ignoredBody

/-- CIN 0x3 (R88). -/
def execIgn3 (s : State) : Host.Outcome State Fault Refusal := transact s ignoredBody

/-- CIN 0x8 (R88). -/
def execIgn8 (s : State) : Host.Outcome State Fault Refusal := transact s ignoredBody

/-- CIN 0x9 (R88). -/
def execIgn9 (s : State) : Host.Outcome State Fault Refusal := transact s ignoredBody

/-- CIN 0xA (R88). -/
def execIgnA (s : State) : Host.Outcome State Fault Refusal := transact s ignoredBody

/-- CIN 0xB (R88). -/
def execIgnB (s : State) : Host.Outcome State Fault Refusal := transact s ignoredBody

/-- CIN 0xC (R88). -/
def execIgnC (s : State) : Host.Outcome State Fault Refusal := transact s ignoredBody

/-- CIN 0xE (R88). -/
def execIgnE (s : State) : Host.Outcome State Fault Refusal := transact s ignoredBody

/-- CIN 0xF (R88). -/
def execIgnF (s : State) : Host.Outcome State Fault Refusal := transact s ignoredBody

end Sys2Proof.Machine
end

