-- ==== Sys2Proof/Machine/Operands.lean ====
section
/-! DEFINITION. The operand fields of PRESSURE (R66). Every operand is an unsigned field, never sign-extended or
scaled (R72). -/

namespace Sys2Proof.Machine

/-- LEVEL_F = B2 & 0x0F = B2[3:0] (R66). -/
def levelOperand (b2 : Byte) : BitVec 4 := b2.extractLsb' 0 4

/-- CH_F = (B2 & 0x70) >> 4 = B2[6:4]; B2[7] is ignored (R66). -/
def channelOperand (b2 : Byte) : BitVec 3 := b2.extractLsb' 4 3

end Sys2Proof.Machine
end

