-- ==== Sys2Proof/Machine/PeakMeter.lean ====
section
/-! DEFINITION. The peak-level decoder and the peak-meter rasterizer (R120 to R131). -/

namespace Sys2Proof.Machine

/-- PRESSURE: store the raw level and restart the decay of its channel (R120). -/
def pressureBody (b2 : Byte) (s : State) : Except Fault State :=
  .ok (((s.setLevel (channelOperand b2) (levelOperand b2)).setDecay (channelOperand b2) 0).raise .peakUpdated)

/-- Step 2: clamp a level to LEVEL_MAX (R123). -/
def clampLevel (c : Params) (l : BitVec 4) : BitVec 4 :=
  if c.levelMax < l.toNat then BitVec.ofNat 4 c.levelMax else l

/-- Step 3's undecayed extent: (L × W) / LMAX, truncating (R124). -/
def baseExtent (c : Params) (l : BitVec 4) : Nat := l.toNat * c.barWidth / c.levelMax

/-- Step 3: the extent e = base + DECAY, an integer that may be negative (R124, C1). -/
def extent (c : Params) (l : BitVec 4) (d : Int) : Int := (baseExtent c l : Int) + d

/-- Step 4: DECAY - STEP (R125). -/
def decayedOnce (c : Params) (d : Int) : Int := d - (c.decayStep : Int)

/-- Step 6: a column is lit iff its index is below the extent and even (R127). -/
def columnLit (e : Int) (i : Nat) : Bool := decide ((i : Int) < e) && decide (i % 2 = 0)

/-- Step 6: the byte of column `i`: the border pattern, with the fill byte where the column is lit (R127). -/
def column (c : Params) (e : Int) (i : Nat) : Byte :=
  c.borderByte ||| (if columnLit e i then c.fillByte else 0)

/-- Step 6: the bitmap of a bar of extent `e` (R127). -/
def bar (c : Params) (e : Int) : List Byte := (List.range c.barWidth).map (column c e)

/-- Step 1: the bitmap of the empty bar, the border in every column (R122). -/
def emptyBar (c : Params) : List Byte := List.replicate c.barWidth c.borderByte

/-- Step 5: on a negative extent the decay has consumed the bar and the level is forced to 0 (R126). -/
def State.exhaust (ch : BitVec 3) (e : Int) (s : State) : State :=
  if e < 0 then s.setLevel ch 0 else s

/-- RENDER, its steps 1 to 6 (R121). -/
def renderBody (ch : BitVec 3) (s : State) : Except Fault State :=
  if s.levelOf ch = 0 then .ok (s.driveCols (emptyBar s.cfg))
  else
    let l := clampLevel s.cfg (s.levelOf ch)
    let e := extent s.cfg l (s.decayOf ch)
    let d := decayedOnce s.cfg (s.decayOf ch)
    .ok ((((s.setLevel ch l).setDecay ch d).exhaust ch e).driveCols (bar s.cfg (max e 0)))

/-- PRESSURE, CIN 0xD (R120). -/
def execPressure (b2 : Byte) (s : State) : Host.Outcome State Fault Refusal := transact s (pressureBody b2)

/-- RENDER, OPSEL 1 (R121). -/
def execRender (ch : BitVec 3) (s : State) : Host.Outcome State Fault Refusal := transact s (renderBody ch)

end Sys2Proof.Machine
end

