-- ==== Sys2Proof/Machine/DisplayDecoder.lean ====
section
/-! DEFINITION. The channel-strip protocol decoder and its offset write into TEXT (R100 to R110). -/

namespace Sys2Proof.Machine

/-- The validity predicate: long enough, SYSEX_START first, CMD_ID at CMD_INDEX (R101). The header bytes between are
not read (R102). -/
def displayPredicate (c : Params) (m : List Byte) : Bool :=
  decide (c.minLen ≤ m.length) && m[0]? == some c.sysexStart && m[c.cmdIndex]? == some c.cmdId

/-- The offset: the byte at OFFSET_INDEX as an unsigned number, not masked (R103). A message that passes the predicate
of a valid configuration has that byte (MIN_LEN > OFFSET_INDEX, R7), so the 0 for a missing one is never used. -/
def messageOffset (c : Params) (m : List Byte) : Nat := (m.getD c.offsetIndex 0).toNat

/-- The length of the payload: the distance from PAYLOAD_INDEX to the first TERMINATOR at or after it, none where the
rest of the message holds no terminator (R104). -/
def payloadLength? (c : Params) (m : List Byte) : Option Nat :=
  (m.drop c.payloadIndex).findIdx? (fun b => b == c.terminator)

/-- How many payload bytes fit: min(p, max(0, TEXT_SIZE - off)) (R106). -/
def writtenCount (c : Params) (off p : Nat) : Nat := min p (c.textSize - off)

/-- `Decode(M)`: predicate, terminator, bounded write, report, dirty flag, in that order (R100, R154). -/
def displayDecode (m : List Byte) (s : State) : Except Fault State :=
  if displayPredicate s.cfg m then
    match payloadLength? s.cfg m with
    | none => .ok (s.raise .malformedNoTerminator)
    | some p =>
      let off := messageOffset s.cfg m
      let count := writtenCount s.cfg off p
      match s.writeText off ((m.drop s.cfg.payloadIndex).take count) with
      | .error e => .error e
      | .ok t =>
        let report : Cond := if s.cfg.textSize < off + p then .regionOverflow else .applied
        .ok (((t.driveWritten count).raise report).setDirty true)
  else .ok (s.raise .malformedPredicate)

end Sys2Proof.Machine
end

