-- ==== Sys2Proof/Machine/Reassembler.lean ====
section
/-! DEFINITION. The SysEx reassembler: the fragment forms of FEED and the completion of a message (R82 to R91). The
byte values of a fragment are never examined (R89). -/

namespace Sys2Proof.Machine

/-- A start fragment empties the buffer where no message is being accumulated. The Ended branch is the source's; no
transaction starts in it (R82, C6). -/
def State.freshStart (s : State) : State :=
  if s.framing = .idle ∨ s.framing = .ended then s.setLen 0 else s

/-- SX_CONT: start or continue a message (R82). -/
def sxContBody (b1 b2 b3 : Byte) (s : State) : Except Fault State :=
  match append [b1, b2, b3] s.freshStart with
  | .error e => .error e
  | .ok (.overflow t) => .ok t
  | .ok (.appended t) => .ok (t.setFraming .accumulating)

/-- `Complete()`: drive the completed message, decode it in the same transaction, re-arm to Idle with an empty buffer
(R86, D1, D11). -/
def complete (s : State) : Except Fault State :=
  match displayDecode s.message (s.driveMessage s.message) with
  | .error e => .error e
  | .ok t => .ok ((t.setLen 0).setFraming .idle)

/-- `SX_END(bytes)`: append the terminal bytes, reach Ended, complete (R83 to R85). A terminal fragment does not empty
the buffer first (R90). -/
def sxEndBody (bs : List Byte) (s : State) : Except Fault State :=
  match append bs s with
  | .error e => .error e
  | .ok (.overflow t) => .ok t
  | .ok (.appended t) => complete (t.setFraming .ended)

/-- SX_CONT, CIN 0x4 (R82). -/
def execSxCont (b1 b2 b3 : Byte) (s : State) : Host.Outcome State Fault Refusal :=
  transact s (sxContBody b1 b2 b3)

/-- SX_END1, CIN 0x5 (R83). -/
def execSxEnd1 (b1 : Byte) (s : State) : Host.Outcome State Fault Refusal :=
  transact s (sxEndBody [b1])

/-- SX_END2, CIN 0x6 (R84). -/
def execSxEnd2 (b1 b2 : Byte) (s : State) : Host.Outcome State Fault Refusal :=
  transact s (sxEndBody [b1, b2])

/-- SX_END3, CIN 0x7 (R85). -/
def execSxEnd3 (b1 b2 b3 : Byte) (s : State) : Host.Outcome State Fault Refusal :=
  transact s (sxEndBody [b1, b2, b3])

end Sys2Proof.Machine
end

