-- ==== Sys2Proof/Machine/Dispatch.lean ====
section
/-! DEFINITION. The meaning of each transaction form, one arm per constructor (R61, R63, R80). -/

namespace Sys2Proof.Machine

def exec (i : Instr) (s : State) : Host.Outcome State Fault Refusal :=
  match i with
  | .ign0 => Sys2Proof.Machine.execIgn0 s
  | .ign1 => Sys2Proof.Machine.execIgn1 s
  | .ign2 => Sys2Proof.Machine.execIgn2 s
  | .ign3 => Sys2Proof.Machine.execIgn3 s
  | .sxCont b1 b2 b3 => Sys2Proof.Machine.execSxCont b1 b2 b3 s
  | .sxEnd1 b1 => Sys2Proof.Machine.execSxEnd1 b1 s
  | .sxEnd2 b1 b2 => Sys2Proof.Machine.execSxEnd2 b1 b2 s
  | .sxEnd3 b1 b2 b3 => Sys2Proof.Machine.execSxEnd3 b1 b2 b3 s
  | .ign8 => Sys2Proof.Machine.execIgn8 s
  | .ign9 => Sys2Proof.Machine.execIgn9 s
  | .ignA => Sys2Proof.Machine.execIgnA s
  | .ignB => Sys2Proof.Machine.execIgnB s
  | .ignC => Sys2Proof.Machine.execIgnC s
  | .pressure b2 => Sys2Proof.Machine.execPressure b2 s
  | .ignE => Sys2Proof.Machine.execIgnE s
  | .ignF => Sys2Proof.Machine.execIgnF s
  | .render ch => Sys2Proof.Machine.execRender ch s
  | .clrDirty => Sys2Proof.Machine.execClrDirty s
  | .reset => Sys2Proof.Machine.execReset s
  | .rsv4 => Sys2Proof.Machine.execRsv4 s
  | .rsv5 => Sys2Proof.Machine.execRsv5 s
  | .rsv6 => Sys2Proof.Machine.execRsv6 s
  | .rsv7 => Sys2Proof.Machine.execRsv7 s

end Sys2Proof.Machine
end

