-- ==== Sys2Proof/Machine/Step.lean ====
section
/-! DEFINITION. One step: the block accepts the next transaction the host has issued, decodes it and runs it (R11, R50). -/

namespace Sys2Proof.Machine

/-- One step. With no transaction waiting nothing happens, and no output record exists (log entries 3 and 19). Otherwise the
next word is accepted, a new draw begins for the unspecified bytes (log entry 4), and the decoded transaction runs. -/
def step (s : State) : Host.Outcome State Fault Refusal :=
  match s.pending with
  | [] => idle s
  | w :: rest => exec (decode w) { s with pending := rest, draws := s.draws + 1 }

/-- The host issues the word `w` ahead of every waiting one, so that the next step accepts exactly it (log entry 1).
The port is 35 bits wide, so a bit above bit 34 has nowhere to go. -/
def State.withFetchWord (s : State) (_nbits w : Nat) : State :=
  { s with pending := BitVec.ofNat 35 w :: s.pending }

end Sys2Proof.Machine
end

