-- ==== Sys2Proof/Machine/Agents.lean ====
section
/-! DEFINITION. The host roles and the order-preserving merges of their transaction sequences (R51, R158). -/

namespace Sys2Proof.Machine

/-- The host roles that issue transactions (R158). The display reader issues none: it reads the observation port. -/
inductive Role where
  /-- The USB transport: issues FEED. -/
  | ingress
  /-- The external scheduler: issues RENDER and CLRDIRTY. -/
  | renderAgent
  /-- The reset source: issues RESET. -/
  | resetSource
  deriving DecidableEq, Repr

/-- The role that issues a transaction; none for the reserved forms, which spell no transaction (R158, R69). -/
def issuedBy : Instr → Option Role
  | .ign0 | .ign1 | .ign2 | .ign3 => some .ingress
  | .sxCont _ _ _ | .sxEnd1 _ | .sxEnd2 _ _ | .sxEnd3 _ _ _ => some .ingress
  | .ign8 | .ign9 | .ignA | .ignB | .ignC => some .ingress
  | .pressure _ => some .ingress
  | .ignE | .ignF => some .ingress
  | .render _ | .clrDirty => some .renderAgent
  | .reset => some .resetSource
  | .rsv4 | .rsv5 | .rsv6 | .rsv7 => none

/-- The words of a queue that one role issued, in their order. -/
def issuedWords (r : Role) (q : List TransWord) : List TransWord :=
  q.filter (fun w => issuedBy (decode w) == some r)

/-- `q` is a possible order of acceptance for the three sequences: any merge that keeps each role's own order (R158). -/
def PossibleRun (ingress renders resets q : List TransWord) : Prop :=
  issuedWords .ingress q = ingress ∧ issuedWords .renderAgent q = renders ∧ issuedWords .resetSource q = resets ∧
    ∀ w ∈ q, (issuedBy (decode w)).isSome

end Sys2Proof.Machine
end

