-- ==== Sys2Proof/Machine/Assembler.lean ====
section
/-! DEFINITION. The pseudo-instructions of the assembler syntax, as the transaction words that they expand to (R75). -/

namespace Sys2Proof.Asm

/-- `SXC b1 b2 b3` = `FEED 04 b1 b2 b3`. -/
def sxc (b1 b2 b3 : Byte) : TransWord := feedWord 0x04 b1 b2 b3

/-- `SXE1 b1` = `FEED 05 b1 00 00`. -/
def sxe1 (b1 : Byte) : TransWord := feedWord 0x05 b1 0 0

/-- `SXE2 b1 b2` = `FEED 06 b1 b2 00`. -/
def sxe2 (b1 b2 : Byte) : TransWord := feedWord 0x06 b1 b2 0

/-- `SXE3 b1 b2 b3` = `FEED 07 b1 b2 b3`. -/
def sxe3 (b1 b2 b3 : Byte) : TransWord := feedWord 0x07 b1 b2 b3

/-- `PRESS v` = `FEED 0D D0 v 00`. -/
def press (v : Byte) : TransWord := feedWord 0x0D 0xD0 v 0

/-- `RENDER c`. -/
def renderWord (c : BitVec 3) : TransWord := wordOf 1 (0#29 ++ c)

/-- `CLRDIRTY`. -/
def clrDirtyWord : TransWord := wordOf 2 0

/-- `RESET`. -/
def resetWord : TransWord := wordOf 3 0

/-- `SYSEX m0 … m(n-1)`: SXC packets of three bytes while more than three are left, then the terminal packet of one,
two or three bytes. R75 gives it for n ≥ 1; the empty message has no packet. -/
def sysex : List Byte → List TransWord
  | [] => []
  | [a] => [sxe1 a]
  | [a, b] => [sxe2 a b]
  | [a, b, c] => [sxe3 a b c]
  | a :: b :: c :: d :: m => sxc a b c :: sysex (d :: m)

/-- `TICK` = `RENDER 0` … `RENDER 7`, in channel order. -/
def tick : List TransWord := (List.range 8).map (fun c => renderWord (BitVec.ofNat 3 c))

end Sys2Proof.Asm
end

