-- ==== Sys2Proof/Machine/Observe.lean ====
section
/-! DEFINITION. The observation port: a read-only map of the state between transactions (R47). -/

namespace Sys2Proof.Machine

/-- A channel number from an address inside a window of eight. -/
def channelAt (base a : Nat) : BitVec 3 := BitVec.ofNat 3 (a - base)

/-- The map of R47. Narrow registers are zero-extended; DECAY is sign-extended. Only
BUF[k] with k below LEN is meaningful; above it the read gives the free value (R23, I3). An address that the map does
not give is refused (I9), and so is one at or above CAP or TEXT_SIZE in a smaller configuration (log entry 11). A LEN
or DECAY wider than the port gives its low 16 bits (log entry 11). -/
def observationMap (s : State) (address : BitVec 12) : Except Refusal (BitVec 16) :=
  let a := address.toNat
  if a < 0x70 ∧ a < s.cfg.textSize then .ok ((s.textByte a).setWidth 16)
  else if a = 0x080 then .ok (s.framing.code.setWidth 16)
  else if a = 0x081 then .ok (BitVec.ofNat 16 s.len)
  else if a = 0x082 then .ok ((BitVec.ofBool s.dirty).setWidth 16)
  else if 0x090 ≤ a ∧ a < 0x098 then .ok ((s.levelOf (channelAt 0x090 a)).setWidth 16)
  else if 0x098 ≤ a ∧ a < 0x0A0 then .ok (BitVec.ofInt 16 (s.decayOf (channelAt 0x098 a)))
  else if 0x100 ≤ a ∧ a < 0x1FF ∧ a - 0x100 < s.cfg.cap then .ok ((s.bufByte (a - 0x100)).setWidth 16)
  else .error (.unmappedObservation address)

/-- A read of the observation port (R47). The function of the state changes nothing, so a read has no side effect (R46).
DESIGN CHOICE (log entry 19): R47 refuses by address only; the model also refuses, at every address, where the
configuration is invalid or STATE is Ended or 3, states to which R7, I6 and I8 give no meaning. -/
def observe (s : State) (address : BitVec 12) : Except Refusal (BitVec 16) :=
  match s.refusal? with
  | some r => .error r
  | none => observationMap s address

/-- The linear index of the character in row `r`, strip `p`, position `c`: the dimensions in the order listed, row
outermost (R26). With the defaults it is r × 56 + p × 7 + c. -/
def textIndex (cfg : Params) (r p c : Nat) : Nat := r * (cfg.strips * cfg.chars) + p * cfg.chars + c

end Sys2Proof.Machine
end

