-- ==== Sys2Proof/Safety.lean ====
section
/-! DEFINITION. What holds of the block between transactions (R21 to R29, R129), and what a run of transactions is. -/

namespace Sys2Proof.Machine

/-- The addresses that a memory lists are exactly 0 to n-1, each once and rising. -/
abbrev Memory.ListsBelow (m : Memory) (n : Nat) : Prop := m.map Prod.fst = List.range n

/-- The reassembler between transactions: LEN within CAP (R22), LEN = 0 in Idle, a positive multiple of 3 in
Accumulating (R24), and BUF listing exactly BUF[0..LEN) (R23). -/
abbrev State.ReassemblerInv (s : State) : Prop :=
  s.len ≤ s.cfg.cap ∧
  (s.framing = .idle → s.len = 0) ∧
  (s.framing = .accumulating → s.len % 3 = 0 ∧ 3 ≤ s.len) ∧
  s.buf.ListsBelow s.len

/-- The range of one DECAY register (R28, R129): a multiple of STEP, never positive, never below
-STEP × (⌊W/STEP⌋ + 2), and one STEP above that bound while its channel's level is not 0. -/
abbrev DecayInRange (c : Params) (l : BitVec 4) (d : Int) : Prop :=
  d ≤ 0 ∧ (c.decayStep : Int) ∣ d ∧
  -((c.decayStep * (c.barWidth / c.decayStep + 2) : Nat) : Int) ≤ d ∧
  (l ≠ 0 → -((c.decayStep * (c.barWidth / c.decayStep + 1) : Nat) : Int) ≤ d)

/-- The meters between transactions: every DECAY register in its range (R129). -/
abbrev State.MeterInv (s : State) : Prop :=
  ∀ c : BitVec 3, DecayInRange s.cfg (s.levelOf c) (s.decayOf c)

/-- The invariant of the block between transactions. -/
abbrev State.Inv (s : State) : Prop :=
  s.Ready ∧ s.ReassemblerInv ∧ s.text.ListsBelow s.cfg.textSize ∧ s.MeterInv

/-! ### Groups of registers, for frames -/

/-- The reassembler's registers are the same: STATE, LEN and every byte of BUF. -/
abbrev SameReassembler (s t : State) : Prop := t.framing = s.framing ∧ t.len = s.len ∧ t.buf = s.buf

/-- The text buffer, byte for byte, and DIRTY are the same. -/
abbrev SameDisplay (s t : State) : Prop := t.text = s.text ∧ t.dirty = s.dirty

/-- Every LEVEL and DECAY register is the same. -/
abbrev SameMeters (s t : State) : Prop := t.level = s.level ∧ t.decay = s.decay

/-- The configuration, the waiting transactions and the draw are the same (the model's own fields). -/
abbrev SameHost (s t : State) : Prop := t.cfg = s.cfg ∧ t.pending = s.pending ∧ t.draws = s.draws

/-! ### Families of transaction forms -/

/-- The eleven FEED forms that the block ignores (R88). -/
def ignoredForms : List Instr :=
  [.ign0, .ign1, .ign2, .ign3, .ign8, .ign9, .ignA, .ignB, .ignC, .ignE, .ignF]

/-- The bytes that a terminal fragment appends (R83 to R85). -/
def terminalBytes : Instr → Option (List Byte)
  | .sxEnd1 b1 => some [b1]
  | .sxEnd2 b1 b2 => some [b1, b2]
  | .sxEnd3 b1 b2 b3 => some [b1, b2, b3]
  | _ => none

/-- LEN at the moment a fragment form appends, and how many bytes it appends. SX_CONT in Idle starts at 0 (R82). -/
def fragmentAppend (i : Instr) (s : State) : Option (Nat × Nat) :=
  match i with
  | .sxCont _ _ _ => some (if s.framing = .idle then 0 else s.len, 3)
  | .sxEnd1 _ => some (s.len, 1)
  | .sxEnd2 _ _ => some (s.len, 2)
  | .sxEnd3 _ _ _ => some (s.len, 3)
  | _ => none

/-- A form that carries a SysEx fragment (R82 to R85). -/
def isFragment : Instr → Bool
  | .sxCont _ _ _ | .sxEnd1 _ | .sxEnd2 _ _ | .sxEnd3 _ _ _ => true
  | _ => false

/-- What R101 asks of a message. -/
abbrev IsDisplayMessage (c : Params) (m : List Byte) : Prop :=
  c.minLen ≤ m.length ∧ m[0]? = some c.sysexStart ∧ m[c.cmdIndex]? = some c.cmdId

/-! ### Runs -/

/-- A run of `k` steps of the machine. -/
abbrev runSteps (k : Nat) (s : State) : Host.Outcome State Fault Refusal := Host.Core.run Sys2Proof.core k s

/-- A run over a queue of words: the host issues exactly `q`, and the block accepts all of it. -/
def runWords (q : List TransWord) (s : State) : Host.Outcome State Fault Refusal :=
  runSteps q.length { s with pending := q }

end Sys2Proof.Machine
end

