-- ==== Sys2Proof/Certificates/Slice0/Obligations.lean ====
section
/-! DEFINITION. The statements for the provers, each with the rule of spec/ that it formalises. A statement that says
something of the parameters says it for every valid configuration (R6, R7), the reference one among them. -/

open Sys2Proof Sys2Proof.Machine

/-! ### Encoding -/

/-- Decoding the encoder's word of any instruction gives the instruction back, with every operand (R60 to R68, R75). -/
def Obligations.DecodeInvertsEncode : Prop :=
  ∀ i : Instr, decode (encode i) = i

/-- Re-encoding a decoded word gives every bit of it that some rule reads (R63 to R68): OPSEL, CIN and operand bits. -/
def Obligations.EncodeOfDecodeKeepsEveryReadBit : Prop :=
  ∀ w : TransWord, encode (decode w) &&& careMask (decode w) = w &&& careMask (decode w)

/-- Words that agree on the bits that some rule reads decode alike: the cable id, the unused packet slots and the
ignored DATA bits have no effect (R64, R65, R67, R68). -/
def Obligations.DontCareBitsNeverMatter : Prop :=
  ∀ w w' : TransWord, w' &&& careMask (decode w) = w &&& careMask (decode w) → decode w' = decode w

/-- R64: FEED packets that differ only in CABLE have identical effects, at every step. -/
def Obligations.CableIdHasNoEffect : Prop :=
  ∀ (s : State) (rest : List TransWord) (c c' cin : BitVec 4) (b1 b2 b3 : Byte),
    step { s with pending := feedWord (c ++ cin) b1 b2 b3 :: rest } =
      step { s with pending := feedWord (c' ++ cin) b1 b2 b3 :: rest }

/-- R76: exactly one row of the opcode table matches any 35-bit word; it is the row of the decoded form. -/
def Obligations.ExactlyOneOpcodeRowSelectsEachWord : Prop :=
  ∀ w : TransWord, ∃ r, opcodeTable.filter (fun r => r.selectedBy w) = [r] ∧ r.mnemonic = mnemonic (decode w)

/-- Words of the spec's test vectors decode to the forms that they spell. -/
def Obligations.SampleWordsDecode : Prop :=
  decode 0x004F00001 = .sxCont 0xF0 0x00 0x01 ∧ decode 0x005F70000 = .sxEnd1 0xF7 ∧
  decode 0x00646F700 = .sxEnd2 0x46 0xF7 ∧ decode 0x0074647F7 = .sxEnd3 0x46 0x47 0xF7 ∧
  decode 0x00DD03400 = .pressure 0x34 ∧ decode 0x00BB0107F = .ignB ∧
  decode 0x1FFFFFFFB = .render 3 ∧ decode 0x200000000 = .clrDirty ∧ decode 0x300000000 = .reset ∧
  decode 0x612345678 = .rsv6

/-! ### The step -/

/-- A step accepts the next waiting word and runs the transaction that it decodes to, from the state without that word
and with a new draw (log entries 1 and 4); with no word waiting, in a state in which the block has a meaning, nothing
changes and there is no output (log entry 3). What it does elsewhere is said by StepRefusesExactlyWhereTheSpecDoes. -/
def Obligations.StepRunsTheDecodedTransaction : Prop :=
  (∀ (s : State) (w : TransWord) (rest : List TransWord), s.pending = w :: rest →
    step s = exec (decode w) { s with pending := rest, draws := s.draws + 1 }) ∧
  (∀ s : State, s.pending = [] → s.Ready → step s = .next { s with out := none })

/-- R12: every FEED, RENDER, CLRDIRTY and RESET is done in a ready state: it gives a next state with an output record,
and the block then accepts the next transaction by the ordinary rules. -/
def Obligations.EveryTransactionIsDone : Prop :=
  ∀ (i : Instr) (s : State), WellFormed i = true → s.Ready →
    ∃ t o, exec i s = .next t ∧ t.out = some o ∧ t.Ready

/-- R12 and R49: the block has no fault outcome. In any state at all, no step writes outside BUF or TEXT. -/
def Obligations.NoStepEverFaults : Prop :=
  ∀ (s : State) (f : Fault), step s ≠ .fault f

/-- R7, R12, I6, I7, I8: a step is refused exactly for a reserved OPSEL, an invalid configuration, or a STATE that is
Ended or 3 at the boundary. Which reason is named first, and that an idle step is refused where a transaction is, are the
model's choice (log entries 9 and 19). -/
def Obligations.StepRefusesExactlyWhereTheSpecDoes : Prop :=
  ∀ (s : State) (r : Refusal), step s = .refused r ↔
    (∃ w rest, s.pending = w :: rest ∧ 4 ≤ (opselField w).toNat ∧ r = .reservedTransaction (opselField w)) ∨
    ((∀ w rest, s.pending = w :: rest → (opselField w).toNat < 4) ∧
      ((s.cfg.valid = false ∧ r = .invalidConfiguration) ∨
       (s.cfg.valid = true ∧ (s.framing = .ended ∨ s.framing = .unused3) ∧ r = .illegalFraming)))

/-- R7, I6, I8: where the configuration is invalid or STATE is Ended or 3 at the boundary, no transaction, no step and no
observation read has a meaning. For reads and idle steps this is the model's choice (log entry 19). -/
def Obligations.NothingRunsOutsideTheSpec : Prop :=
  ∀ s : State, ¬ s.Ready → (∀ i : Instr, ∃ r, exec i s = .refused r) ∧ (∃ r, step s = .refused r) ∧
    ∀ x : BitVec 12, ∃ r, observe s x = .error r

/-- R142: the reserved forms are refused in every state, and so is a step that accepts any word with OPSEL 4, 5, 6 or 7:
there is no next state and no output record. The reason that is named, the OPSEL before an invalid configuration or an
illegal STATE, is the model's choice (log entry 9). -/
def Obligations.ReservedTransactionsAreRefused : Prop :=
  (∀ s : State,
    exec .rsv4 s = .refused (.reservedTransaction 4) ∧ exec .rsv5 s = .refused (.reservedTransaction 5) ∧
    exec .rsv6 s = .refused (.reservedTransaction 6) ∧ exec .rsv7 s = .refused (.reservedTransaction 7)) ∧
  (∀ (s : State) (w : TransWord) (rest : List TransWord), s.pending = w :: rest → 4 ≤ (opselField w).toNat →
    step s = .refused (.reservedTransaction (opselField w)))

/-- R151: after any done transaction the block accepts the next one; each of the conditions 1 to 5 leaves STATE = Idle
and LEN = 0. -/
def Obligations.ConditionsAreNeverFatal : Prop :=
  ∀ (i : Instr) (s t : State) (o : Out), exec i s = .next t → t.out = some o →
    t.Ready ∧ (1 ≤ o.cond.code.toNat ∧ o.cond.code.toNat ≤ 5 → t.framing = .idle ∧ t.len = 0)

/-- R152: the output record of an earlier transaction has no influence on a later one. -/
def Obligations.EarlierOutputHasNoEffect : Prop :=
  ∀ (i : Instr) (s : State) (o : Option Out), exec i { s with out := o } = exec i s

/-- R21 and R150: the numeric codes of STATE and of the conditions; no two conditions share one. -/
def Obligations.StateAndConditionCodesAreTheTables : Prop :=
  [Framing.idle, .accumulating, .ended, .unused3].map (fun f => f.code.toNat) = [0, 1, 2, 3] ∧
  [Cond.ok, .applied, .regionOverflow, .malformedPredicate, .malformedNoTerminator, .framingOverflow, .peakUpdated,
    .ignored].map (fun c => c.code.toNat) = [0, 1, 2, 3, 4, 5, 6, 7] ∧
  ∀ c d : Cond, c.code = d.code → c = d

/-! ### The reassembler -/

/-- R88: a FEED of each of the eleven ignored CINs, whatever its other bits, is an ignored form, and each of those
writes no state and reports IGNORED. -/
def Obligations.IgnoredFeedsChangeNothing : Prop :=
  (∀ w : TransWord, opselField w = 0 → cinField w ∈ ([0, 1, 2, 3, 8, 9, 0xA, 0xB, 0xC, 0xE, 0xF] : List (BitVec 4)) →
    decode w ∈ ignoredForms) ∧
  ∀ i ∈ ignoredForms, ∀ s : State, s.Ready →
    exec i s = .next { s with out := some { Out.zero with cond := .ignored } }

/-- R82: SX_CONT empties the buffer in Idle, appends its three bytes, and is then Accumulating; or, where they do not
fit, empties the buffer, is Idle and reports FRAMING_OVERFLOW. Nothing else changes; in a state that satisfies the
reassembler's invariant every byte of BUF outside the three stored reads as before. -/
def Obligations.ContinueAppendsThreeBytes : Prop :=
  ∀ (s : State) (b1 b2 b3 : Byte) (n : Nat), s.Ready → n = (if s.framing = .idle then 0 else s.len) →
    ∃ t, exec (.sxCont b1 b2 b3) s = .next t ∧ SameDisplay s t ∧ SameMeters s t ∧ SameHost s t ∧
      (if n + 3 ≤ s.cfg.cap then
        t.framing = .accumulating ∧ t.len = n + 3 ∧ t.out = some Out.zero ∧
        t.buf.read? n = some b1 ∧ t.buf.read? (n + 1) = some b2 ∧ t.buf.read? (n + 2) = some b3 ∧
        (∀ a < n, t.buf.read? a = s.buf.read? a) ∧
        (s.ReassemblerInv → ∀ a, n + 3 ≤ a → t.buf.read? a = s.buf.read? a)
      else
        t.framing = .idle ∧ t.len = 0 ∧ t.out = some { Out.zero with cond := .framingOverflow })

/-- R83 to R86: a terminal fragment that fits completes the message, which is everything accumulated followed by the
fragment's bytes, drives it on the output record, and re-arms to Idle with an empty buffer. What becomes of TEXT and
DIRTY is said by the statements about Decode. -/
def Obligations.TerminalFragmentCompletesTheMessage : Prop :=
  ∀ (i : Instr) (bs : List Byte) (s : State), terminalBytes i = some bs → s.Ready →
    s.len + bs.length ≤ s.cfg.cap →
    ∃ t o, exec i s = .next t ∧ t.framing = .idle ∧ t.len = 0 ∧ SameMeters s t ∧ SameHost s t ∧
      t.out = some o ∧ o.msgValid = true ∧ o.msgLen = s.len + bs.length ∧ o.msg = s.message ++ bs ∧
      o.cols = [] ∧ o.cond ∈ [Cond.applied, .regionOverflow, .malformedPredicate, .malformedNoTerminator]

/-- R90: a terminal fragment fed in Idle gives a completed message of exactly its own bytes, never a framing error
(a CAP below the fragment's own length, which only a configuration with CAP 1 or 2 has, overflows by R81). -/
def Obligations.TerminalFragmentInIdleIsItsOwnMessage : Prop :=
  ∀ (i : Instr) (bs : List Byte) (s : State), terminalBytes i = some bs → s.Inv → s.framing = .idle →
    bs.length ≤ s.cfg.cap → ∃ t o, exec i s = .next t ∧ t.framing = .idle ∧ t.len = 0 ∧ t.out = some o ∧
      o.msgValid = true ∧ o.msg = bs ∧ o.cond ≠ .framingOverflow

/-- R87: a FEED whose append overflows ends Idle with LEN = 0, no message and FRAMING_OVERFLOW, writes none of TEXT,
DIRTY, LEVEL and DECAY, and the next transaction runs by the ordinary rules. -/
def Obligations.FramingOverflowDropsTheMessage : Prop :=
  ∀ (i : Instr) (s : State) (n k : Nat), fragmentAppend i s = some (n, k) → s.Ready → s.cfg.cap < n + k →
    ∃ t, exec i s = .next t ∧ t.framing = .idle ∧ t.len = 0 ∧
      t.out = some { Out.zero with cond := .framingOverflow } ∧
      SameDisplay s t ∧ SameMeters s t ∧ SameHost s t ∧ t.Ready

/-- R91 and R92: the packets of a message fed from Idle, with any ignored, channel-pressure, RENDER or CLRDIRTY
transactions between them (no RESET and no reserved word), end in a completed message that is the concatenation of the
fragments. -/
def Obligations.InterleavedMessageIsReassembled : Prop :=
  ∀ (s : State) (m : List Byte) (q : List TransWord) (last : TransWord),
    s.Ready → s.framing = .idle → s.len = 0 → m ≠ [] → m.length ≤ s.cfg.cap →
    (q ++ [last]).filter (fun w => isFragment (decode w)) = Asm.sysex m → isFragment (decode last) = true →
    (∀ w ∈ q, WellFormed (decode w) = true ∧ decode w ≠ .reset) →
    ∃ t o, runWords (q ++ [last]) s = .next t ∧ t.framing = .idle ∧ t.len = 0 ∧ t.out = some o ∧
      o.msgValid = true ∧ o.msg = m ∧ o.msgLen = m.length

/-- R91, R175(a): of the packets of a message longer than CAP, fed from Idle, those before packet number CAP/3 report OK,
and that one reports FRAMING_OVERFLOW and leaves the block Idle and empty. -/
def Obligations.OverlongMessageOverflowsAtTheCapacity : Prop :=
  ∀ (s : State) (m : List Byte), s.Ready → s.framing = .idle → s.len = 0 → s.cfg.cap < m.length →
    (∀ k, 0 < k → k ≤ s.cfg.cap / 3 → ∃ t, runWords ((Asm.sysex m).take k) s = .next t ∧
      t.framing = .accumulating ∧ t.len = 3 * k ∧ t.out = some Out.zero) ∧
    ∃ t, runWords ((Asm.sysex m).take (s.cfg.cap / 3 + 1)) s = .next t ∧
      t.framing = .idle ∧ t.len = 0 ∧ t.out = some { Out.zero with cond := .framingOverflow }

/-! ### The display decoder and TEXT -/

/-- R101: a completed message that fails the validity predicate changes nothing but the re-arm to Idle with LEN = 0: TEXT
and DIRTY are unchanged, and MALFORMED_PREDICATE is reported. -/
def Obligations.ForeignMessageLeavesTheText : Prop :=
  ∀ (i : Instr) (bs : List Byte) (s : State), terminalBytes i = some bs → s.Ready →
    s.len + bs.length ≤ s.cfg.cap → ¬ IsDisplayMessage s.cfg (s.message ++ bs) →
    ∃ t o, exec i s = .next t ∧ t.framing = .idle ∧ t.len = 0 ∧ SameDisplay s t ∧ SameMeters s t ∧ SameHost s t ∧
      t.out = some o ∧ o.cond = .malformedPredicate ∧ o.written = 0

/-- R104: a display message with no terminator at or after PAYLOAD_INDEX leaves TEXT and DIRTY unchanged and reports
MALFORMED_NO_TERMINATOR, wherever its offset points (R154). -/
def Obligations.UnterminatedMessageLeavesTheText : Prop :=
  ∀ (i : Instr) (bs : List Byte) (s : State), terminalBytes i = some bs → s.Ready →
    s.len + bs.length ≤ s.cfg.cap → IsDisplayMessage s.cfg (s.message ++ bs) →
    s.cfg.terminator ∉ (s.message ++ bs).drop s.cfg.payloadIndex →
    ∃ t o, exec i s = .next t ∧ t.framing = .idle ∧ t.len = 0 ∧ SameDisplay s t ∧ SameMeters s t ∧ SameHost s t ∧
      t.out = some o ∧ o.cond = .malformedNoTerminator ∧ o.written = 0

/-- R43, R103, R106, R107: a display message whose payload `pay` ends at the first terminator at or after PAYLOAD_INDEX
writes its in-bounds prefix from the offset (the unmasked byte at OFFSET_INDEX) upward; every other byte of TEXT reads
as before; a payload that does not fit reports REGION_OVERFLOW, any other APPLIED; DIRTY is set (R108). That WRITTEN holds
the low 7 bits of the count, which matters with a TEXT_SIZE above 127 only, is the model's choice (log entry 12). -/
def Obligations.DisplayMessageWritesItsPrefix : Prop :=
  ∀ (i : Instr) (bs pay tail : List Byte) (ob : Byte) (s : State), terminalBytes i = some bs → s.Ready →
    s.len + bs.length ≤ s.cfg.cap → IsDisplayMessage s.cfg (s.message ++ bs) →
    (s.message ++ bs).drop s.cfg.payloadIndex = pay ++ s.cfg.terminator :: tail → s.cfg.terminator ∉ pay →
    (s.message ++ bs)[s.cfg.offsetIndex]? = some ob →
    ∃ t o, exec i s = .next t ∧ t.out = some o ∧ t.dirty = true ∧ t.Ready ∧ t.framing = .idle ∧ t.len = 0 ∧
      SameMeters s t ∧ SameHost s t ∧
      (∀ a, t.text.read? a =
        if ob.toNat ≤ a ∧ a < ob.toNat + min pay.length (s.cfg.textSize - ob.toNat) then pay[a - ob.toNat]?
        else s.text.read? a) ∧
      o.written = BitVec.ofNat 7 (min pay.length (s.cfg.textSize - ob.toNat)) ∧
      o.cond = (if s.cfg.textSize < ob.toNat + pay.length then Cond.regionOverflow else .applied)

/-- R25, R30, R108: TEXT changes only in a FEED that reports APPLIED or REGION_OVERFLOW, which sets DIRTY, and in RESET;
DIRTY changes only there and in CLRDIRTY. -/
def Obligations.TextAndDirtyChangeOnlyThere : Prop :=
  ∀ (i : Instr) (s t : State) (o : Out), exec i s = .next t → t.out = some o →
    (t.text = s.text ∨ i = .reset ∨ o.cond = .applied ∨ o.cond = .regionOverflow) ∧
    (t.dirty = s.dirty ∨ i = .reset ∨ i = .clrDirty ∨ o.cond = .applied ∨ o.cond = .regionOverflow) ∧
    (o.cond = .applied ∨ o.cond = .regionOverflow → (terminalBytes i).isSome ∧ t.dirty = true)

/-- R106, R110: whatever a transaction does, no byte of TEXT at or above TEXT_SIZE is ever written. -/
def Obligations.NothingBeyondTheTextBufferIsWritten : Prop :=
  ∀ (i : Instr) (s t : State) (a : Nat), exec i s = .next t → s.cfg.textSize ≤ a → i ≠ .reset →
    t.text.read? a = s.text.read? a

/-- R26: with the defaults the linear index places the 2 × 8 × 7 characters on the 112 cells one to one, row 0 in
[0, 56) and row 1 in [56, 112). -/
def Obligations.TextIndexIsOneToOne : Prop :=
  ∀ r p c r' p' c' : Nat, r < 2 → p < 8 → c < 7 → r' < 2 → p' < 8 → c' < 7 →
    textIndex Params.reference r p c < 112 ∧ (textIndex Params.reference r p c < 56 ↔ r = 0) ∧
    textIndex Params.reference r p c = r * 56 + p * 7 + c ∧
    (textIndex Params.reference r p c = textIndex Params.reference r' p' c' → r = r' ∧ p = p' ∧ c = c')

/-! ### The meters -/

/-- R66 and R120: a FEED with CIN 0xD is PRESSURE of its B2, whatever its other bits; PRESSURE stores B2 & 0x0F, raw, as
the level of channel (B2 & 0x70) >> 4, resets that channel's decay to 0, reports PEAK_UPDATED and writes nothing else. -/
def Obligations.PressureLoadsOneLevel : Prop :=
  (∀ w : TransWord, opselField w = 0 → cinField w = 0xD → decode w = .pressure (b2Field w)) ∧
  ∀ (b2 : Byte) (s : State), s.Ready →
    ∃ t, exec (.pressure b2) s = .next t ∧ t.out = some { Out.zero with cond := .peakUpdated } ∧
      SameReassembler s t ∧ SameDisplay s t ∧ SameHost s t ∧
      ∀ c : BitVec 3,
        (c.toNat = ((b2 &&& 0x70) >>> 4).toNat → (t.levelOf c).toNat = (b2 &&& 0x0F).toNat ∧ t.decayOf c = 0) ∧
        (c.toNat ≠ ((b2 &&& 0x70) >>> 4).toNat → t.levelOf c = s.levelOf c ∧ t.decayOf c = s.decayOf c)

/-- R122: RENDER of a channel at level 0 gives the border in every column and writes no state. -/
def Obligations.RenderOfEmptyChannelShowsTheBorder : Prop :=
  ∀ (ch : BitVec 3) (s : State), s.Ready → s.levelOf ch = 0 →
    exec (.render ch) s =
      .next { s with out := some { Out.zero with cols := List.replicate s.cfg.barWidth s.cfg.borderByte } }

/-- R121, R123 to R127: RENDER of a channel whose level is not 0. With L the clamped level and
e = (L × W) / LMAX + DECAY from the old registers: DECAY falls by STEP (wherever that fits the register, R10, R129), the
level becomes L, or 0 where e is negative, column i is the border with the fill byte where i < e and i is even, and
nothing else changes. -/
def Obligations.RenderAdvancesTheMeter : Prop :=
  ∀ (ch : BitVec 3) (s : State) (L : Nat) (e : Int), s.Ready → s.levelOf ch ≠ 0 →
    L = min (s.levelOf ch).toNat s.cfg.levelMax →
    e = ((L * s.cfg.barWidth / s.cfg.levelMax : Nat) : Int) + s.decayOf ch →
    ∃ t cols, exec (.render ch) s = .next t ∧ t.out = some { Out.zero with cols := cols } ∧
      SameReassembler s t ∧ SameDisplay s t ∧ SameHost s t ∧
      (t.levelOf ch).toNat = (if e < 0 then 0 else L) ∧
      (-(2 ^ (s.cfg.decayWidth - 1) : Int) ≤ s.decayOf ch - s.cfg.decayStep →
        s.decayOf ch - s.cfg.decayStep < 2 ^ (s.cfg.decayWidth - 1) →
        t.decayOf ch = s.decayOf ch - s.cfg.decayStep) ∧
      (∀ c, c ≠ ch → t.levelOf c = s.levelOf c ∧ t.decayOf c = s.decayOf c) ∧
      cols.length = s.cfg.barWidth ∧
      ∀ i < s.cfg.barWidth, cols[i]? =
        some (s.cfg.borderByte ||| (if (i : Int) < e ∧ i % 2 = 0 then s.cfg.fillByte else 0))

/-- R127: of a bar of extent e, 0 ≤ e ≤ W, the number of lit columns is e/2 rounded up. -/
def Obligations.HalfTheExtentIsLit : Prop :=
  ∀ w e : Nat, e ≤ w → (List.range w).countP (columnLit (e : Int)) = (e + 1) / 2

/-- R128: after a PRESSURE event whose clamped level L is at least 1, the k-th RENDER of its channel (k = 0, 1, …) shows
the extent base - k × STEP while that is not negative, and the empty bar at level 0 from then on. -/
def Obligations.MeterFallsLinearlyToEmpty : Prop :=
  ∀ (s : State) (b2 : Byte) (c : BitVec 3) (L base k : Nat), s.Ready → c.toNat = ((b2 &&& 0x70) >>> 4).toNat →
    L = min (b2 &&& 0x0F).toNat s.cfg.levelMax → 1 ≤ L → base = L * s.cfg.barWidth / s.cfg.levelMax →
    ∃ t o, runWords (Asm.press b2 :: List.replicate (k + 1) (Asm.renderWord c)) s = .next t ∧ t.out = some o ∧
      (k * s.cfg.decayStep ≤ base →
        (t.levelOf c).toNat = L ∧ t.decayOf c = -(((k + 1) * s.cfg.decayStep : Nat) : Int) ∧
        o.cols = bar s.cfg ((base - k * s.cfg.decayStep : Nat) : Int)) ∧
      (base < k * s.cfg.decayStep →
        t.levelOf c = 0 ∧ o.cols = List.replicate s.cfg.barWidth s.cfg.borderByte)

/-- R130: RENDERs of two different channels give the same registers in either order, and each gives the bitmap that it
gives alone. -/
def Obligations.RendersOfTwoChannelsCommute : Prop :=
  ∀ (a b : BitVec 3) (s : State), a ≠ b → s.Ready →
    ∃ t1 t2 u1 u2, exec (.render a) s = .next t1 ∧ exec (.render b) t1 = .next t2 ∧
      exec (.render b) s = .next u1 ∧ exec (.render a) u1 = .next u2 ∧
      { t2 with out := none } = { u2 with out := none } ∧ t2.out = u1.out ∧ u2.out = t1.out

/-- R29: LEVEL[c] and DECAY[c] are written by a pressure event for channel c, by RENDER(c) and by RESET, and by
nothing else. -/
def Obligations.OnlyTheNamedChannelIsTouched : Prop :=
  ∀ (i : Instr) (s t : State) (c : BitVec 3), exec i s = .next t → i ≠ .reset → i ≠ .render c →
    (∀ b2, i = .pressure b2 → c.toNat ≠ ((b2 &&& 0x70) >>> 4).toNat) →
    t.levelOf c = s.levelOf c ∧ t.decayOf c = s.decayOf c

/-- R131: RENDER does not read or write DIRTY. -/
def Obligations.RenderNeitherReadsNorWritesDirty : Prop :=
  ∀ (ch : BitVec 3) (s t : State) (d : Bool), exec (.render ch) s = .next t →
    t.dirty = s.dirty ∧ exec (.render ch) { s with dirty := d } = .next { t with dirty := d }

/-! ### Host operations, reset, configuration -/

/-- R140: OPSEL 2, whatever DATA, is CLRDIRTY, which clears DIRTY and leaves every other register unchanged. -/
def Obligations.ClearDirtyClearsOnlyDirty : Prop :=
  (∀ w : TransWord, opselField w = 2 → decode w = .clrDirty) ∧
  ∀ s : State, s.Ready → exec .clrDirty s = .next { s with dirty := false, out := some Out.zero }

/-- R170: the RESET transaction and power-on reset give STATE, LEN, TEXT, LEVEL, DECAY and DIRTY their reset values, the
RESET transaction with an all-zero record. BUF is left unspecified. That RESET keeps the model's own fields (SameHost) and
that power-on has the reference configuration are the model's choice (log entries 8 and 5). -/
def Obligations.ResetGivesEveryRegisterItsValue : Prop :=
  (∀ s : State, s.Ready →
    ∃ t, exec .reset s = .next t ∧ t.framing = .idle ∧ t.len = 0 ∧
      (∀ a b, a < s.cfg.textSize → s.cfg.textInit[a]? = some b → t.text.read? a = some b) ∧
      (∀ c, t.levelOf c = 0 ∧ t.decayOf c = 0) ∧ t.dirty = false ∧ t.out = some Out.zero ∧ SameHost s t) ∧
  State.reset.framing = .idle ∧ State.reset.len = 0 ∧
  (∀ a, State.reset.text.read? a = Params.reference.textInit[a]?) ∧
  (∀ c, State.reset.levelOf c = 0 ∧ State.reset.decayOf c = 0) ∧ State.reset.dirty = false

/-- R141: in the reference configuration the RESET transaction reaches the power-on reset state but for the model's own
fields (the output record, the waiting words and the draw, log entries 1, 2 and 4). -/
def Obligations.ResetTransactionIsThePowerOnReset : Prop :=
  ∀ s : State, s.Ready → s.cfg = Params.reference →
    exec .reset s = .next { State.reset with out := some Out.zero, pending := s.pending, draws := s.draws }

/-- R20, R172: no step changes the configuration. -/
def Obligations.ConfigurationIsFixedForLife : Prop :=
  ∀ s t : State, step s = .next t → t.cfg = s.cfg

/-- R6, R131: the render policy is "informative only, the block does not read it". -/
def Obligations.RenderPolicyIsNeverRead : Prop :=
  ∀ (i : Instr) (s t : State) (p : RenderPolicy), exec i s = .next t →
    exec i { s with cfg := { s.cfg with renderPolicy := p } } =
      .next { t with cfg := { t.cfg with renderPolicy := p } }

/-! ### The invariant and whole runs -/

/-- R21 to R24, R129: every step keeps the invariant of the block: STATE is Idle or Accumulating, LEN is within CAP, 0 in
Idle and a positive multiple of 3 in Accumulating, BUF lists exactly BUF[0..LEN) (log entry 4), TEXT lists exactly its
TEXT_SIZE cells, and every DECAY register is within the bound of R129. -/
def Obligations.EveryStepKeepsTheInvariant : Prop :=
  ∀ s t : State, s.Inv → step s = .next t → t.Inv

/-- R170: the power-on reset state satisfies the invariant. -/
def Obligations.PowerOnResetSatisfiesTheInvariant : Prop := State.reset.Inv

/-- R158: in every merge of an ingress sequence with a render agent's RENDERs and CLRDIRTYs, the reassembler and TEXT end
as if the ingress sequence had run alone. That the merges reach the block as one list is the model's choice (log entries 1
and 14). -/
def Obligations.RenderAgentNeverDisturbsIngress : Prop :=
  ∀ (s : State) (ingress renders q : List TransWord), s.Inv → PossibleRun ingress renders [] q →
    ∃ t u, runWords q s = .next t ∧ runWords ingress s = .next u ∧ SameReassembler u t ∧ t.text = u.text

/-- R80, R92: in every run without RESET, the meters end as if every SysEx fragment had been left out. -/
def Obligations.SysExTrafficNeverDisturbsTheMeters : Prop :=
  ∀ (s : State) (q : List TransWord), s.Ready → (∀ w ∈ q, WellFormed (decode w) = true ∧ decode w ≠ .reset) →
    ∃ t u, runWords q s = .next t ∧ runWords (q.filter (fun w => !isFragment (decode w))) s = .next u ∧
      SameMeters u t

/-! ### The observation port -/

/-- R47: the observation map, for the TEXT_SIZE of 112 that the map is written for, any CAP, and register values that fit
the port's 16 bits; and the refusal of every other address, which includes those of BUF at or above CAP. Elsewhere
(another TEXT_SIZE, wider values, states outside the spec) see log entries 11 and 19. -/
def Obligations.ObservationMapIsTheTable : Prop :=
  ∀ (s : State) (x : BitVec 12), s.Ready → s.cfg.textSize = 112 →
    (x.toNat ≤ 0x06F → observe s x = .ok ((s.textByte x.toNat).setWidth 16)) ∧
    (x = 0x080 → observe s x = .ok (s.framing.code.setWidth 16)) ∧
    (x = 0x081 → s.len < 2 ^ 16 → ∃ v, observe s x = .ok v ∧ v.toNat = s.len) ∧
    (x = 0x082 → observe s x = .ok (if s.dirty then 1 else 0)) ∧
    (∀ c : BitVec 3, x.toNat = 0x090 + c.toNat → observe s x = .ok ((s.levelOf c).setWidth 16)) ∧
    (∀ c : BitVec 3, x.toNat = 0x098 + c.toNat → -(2 ^ 15 : Int) ≤ s.decayOf c → s.decayOf c < 2 ^ 15 →
      ∃ v, observe s x = .ok v ∧ v.toInt = s.decayOf c) ∧
    (0x100 ≤ x.toNat → x.toNat ≤ 0x1FE → x.toNat < 0x100 + s.cfg.cap →
      observe s x = .ok ((s.bufByte (x.toNat - 0x100)).setWidth 16)) ∧
    ((0x06F < x.toNat ∧ x.toNat < 0x080) ∨ (0x082 < x.toNat ∧ x.toNat < 0x090) ∨
      (0x09F < x.toNat ∧ x.toNat < 0x100) ∨ 0x1FE < x.toNat ∨ 0x100 + s.cfg.cap ≤ x.toNat →
      observe s x = .error (.unmappedObservation x))

/-- R23: under the invariant a byte of BUF below LEN is the stored one; one at or above LEN is the free value, of which
nothing is known (the model's choice, log entry 4). -/
def Obligations.StaleBufferBytesAreFreeValues : Prop :=
  ∀ (s : State) (k : Nat), s.Inv →
    (k < s.len → ∃ b, s.buf.read? k = some b ∧ s.bufByte k = b) ∧
    (s.len ≤ k → s.bufByte k = Config.unspecifiedByte s.draws k)
end

