-- ==== Sys2Proof/Laws/Memory.lean ====
section
/-! SUPPORT. The laws of the byte arrays: what a read answers after a write, and that every operation keeps the
canonical form. -/

namespace Sys2Proof.Machine

/-! ### Reads after writes -/

/-- A byte written is the byte read, and every other address reads as before. -/
@[simp] theorem Memory.read?_write (m : Memory) (a x : Nat) (b : Byte) :
    (m.write a b).read? x = if x = a then some b else m.read? x := by
  induction m with
  | nil => simp [Memory.write, Memory.read?]
  | cons c m ih =>
    obtain ⟨y, v⟩ := c
    simp only [Memory.write]
    split
    · simp [Memory.read?]
    · split
      · subst_vars
        by_cases h : x = y <;> simp [Memory.read?, h]
      · simp only [Memory.read?, ih]
        by_cases h : x = y
        · subst h; simp; omega
        · simp [h]

/-- After a list of bytes is written from `a` upward, the written addresses read as the bytes and all others as before. -/
theorem Memory.read?_writeList (bs : List Byte) (m : Memory) (a x : Nat) :
    (m.writeList a bs).read? x = if a ≤ x ∧ x < a + bs.length then bs[x - a]? else m.read? x := by
  induction bs generalizing m a with
  | nil =>
    have : ¬ (a ≤ x ∧ x < a) := by omega
    simp [Memory.writeList, this]
  | cons b bs ih =>
    simp only [Memory.writeList, ih, Memory.read?_write, List.length_cons]
    by_cases h1 : x = a
    · subst h1
      have : ¬ (x + 1 ≤ x) := by omega
      simp [this]
    · by_cases h2 : a + 1 ≤ x ∧ x < a + 1 + bs.length
      · have h3 : a ≤ x ∧ x < a + (bs.length + 1) := by omega
        have h4 : x - a = x - (a + 1) + 1 := by omega
        rw [if_pos h2, if_pos h3, h4, List.getElem?_cons_succ]
      · have h3 : ¬ (a ≤ x ∧ x < a + (bs.length + 1)) := by omega
        rw [if_neg h2, if_neg h3, if_neg h1]

/-- Truncation forgets exactly the addresses at or above the bound. -/
theorem Memory.read?_truncate (m : Memory) (n x : Nat) :
    (m.truncate n).read? x = if x < n then m.read? x else none := by
  induction m with
  | nil => simp [Memory.truncate, Memory.read?]
  | cons c m ih =>
    obtain ⟨y, v⟩ := c
    simp only [Memory.truncate] at ih ⊢
    by_cases h : y < n
    · rw [List.filter_cons_of_pos (by simpa using h)]
      simp only [Memory.read?, ih]
      by_cases hx : x = y <;> simp [hx, h]
    · rw [List.filter_cons_of_neg (by simpa using h), ih]
      simp only [Memory.read?]
      by_cases hx : x = y
      · subst hx; simp [h]
      · simp [hx]

/-! ### The canonical form -/

/-- The canonical form says that the addresses rise strictly. -/
theorem Memory.wf_iff (m : Memory) : m.wf = true ↔ (m.map Prod.fst).Pairwise (· < ·) := by
  induction m with
  | nil => simp [Memory.wf]
  | cons c m ih =>
    obtain ⟨a, v⟩ := c
    simp [Memory.wf, ih, List.pairwise_cons]

/-- The addresses of a memory after a write are the written one and those there before. -/
theorem Memory.mem_write {m : Memory} {a x : Nat} {b : Byte} :
    x ∈ (m.write a b).map Prod.fst ↔ x = a ∨ x ∈ m.map Prod.fst := by
  induction m with
  | nil => simp [Memory.write]
  | cons c m ih =>
    obtain ⟨y, v⟩ := c
    simp only [Memory.write]
    split
    · simp
    · split
      · subst_vars; simp
      · simp only [List.map_cons, List.mem_cons, ih]; tauto

/-- A write keeps the canonical form. -/
theorem Memory.write_wf {m : Memory} (h : m.wf = true) (a : Nat) (b : Byte) : (m.write a b).wf = true := by
  induction m with
  | nil => simp [Memory.write, Memory.wf]
  | cons c m ih =>
    obtain ⟨y, v⟩ := c
    rw [Memory.wf_iff] at h ih
    simp only [List.map_cons, List.pairwise_cons] at h
    simp only [Memory.write]
    split
    · rw [Memory.wf_iff]
      simp only [List.map_cons, List.pairwise_cons, List.mem_cons, forall_eq_or_imp]
      exact ⟨⟨by omega, fun x hx => by have := h.1 x hx; omega⟩, h⟩
    · split
      · subst_vars
        rw [Memory.wf_iff]; simpa using h
      · rw [Memory.wf_iff]
        simp only [List.map_cons, List.pairwise_cons]
        refine ⟨fun x hx => ?_, (Memory.wf_iff _).1 (ih h.2)⟩
        rcases Memory.mem_write.1 hx with rfl | hx
        · omega
        · exact h.1 x hx

/-- A list write keeps the canonical form. -/
theorem Memory.writeList_wf (bs : List Byte) {m : Memory} (h : m.wf = true) (a : Nat) :
    (m.writeList a bs).wf = true := by
  induction bs generalizing m a with
  | nil => exact h
  | cons b bs ih => exact ih (Memory.write_wf h a b) (a + 1)

/-- Truncation keeps the canonical form. -/
theorem Memory.truncate_wf {m : Memory} (h : m.wf = true) (n : Nat) : (m.truncate n).wf = true := by
  rw [Memory.wf_iff] at h ⊢
  exact h.sublist (List.filter_sublist.map _)

/-! ### Memories that list exactly a range of addresses -/

/-- A memory that lists exactly 0 to n-1 is in canonical form. -/
theorem Memory.wf_of_lists {m : Memory} {n : Nat} (h : m.map Prod.fst = List.range n) : m.wf = true := by
  rw [Memory.wf_iff, h]; exact List.pairwise_lt_range

/-- Overwriting a listed address changes no address. -/
theorem Memory.write_addresses_of_mem {m : Memory} (hm : m.wf = true) {a : Nat} (ha : a ∈ m.map Prod.fst) (b : Byte) :
    (m.write a b).map Prod.fst = m.map Prod.fst := by
  induction m with
  | nil => simp at ha
  | cons c m ih =>
    obtain ⟨y, v⟩ := c
    rw [Memory.wf_iff] at hm
    simp only [List.map_cons, List.pairwise_cons] at hm
    simp only [List.map_cons, List.mem_cons] at ha
    simp only [Memory.write]
    split
    · rcases ha with rfl | ha
      · omega
      · have := hm.1 a ha; omega
    · split
      · subst_vars; simp
      · rcases ha with rfl | ha
        · omega
        · simp [ih ((Memory.wf_iff _).2 hm.2) ha]

/-- Writing an address above every listed one appends it. -/
theorem Memory.write_addresses_of_above {m : Memory} {a : Nat} (ha : ∀ x ∈ m.map Prod.fst, x < a) (b : Byte) :
    (m.write a b).map Prod.fst = m.map Prod.fst ++ [a] := by
  induction m with
  | nil => simp [Memory.write]
  | cons c m ih =>
    obtain ⟨y, v⟩ := c
    have hy : y < a := ha y (by simp)
    have h1 : ¬ a < y := by omega
    have h2 : ¬ a = y := by omega
    simp only [Memory.write, if_neg h1, if_neg h2, List.map_cons, List.cons_append]
    rw [ih (fun x hx => ha x (by simp [hx]))]

/-- Appending bytes to a memory that lists exactly 0 to n-1. -/
theorem Memory.lists_append (bs : List Byte) {m : Memory} {n : Nat} (h : m.map Prod.fst = List.range n) :
    (m.writeList n bs).map Prod.fst = List.range (n + bs.length) := by
  induction bs generalizing m n with
  | nil => simpa [Memory.writeList] using h
  | cons b bs ih =>
    have h1 : (m.write n b).map Prod.fst = List.range (n + 1) := by
      rw [Memory.write_addresses_of_above (by rw [h]; simp) b, h, List.range_succ]
    have := ih h1
    simp only [Memory.writeList, List.length_cons]
    rw [this]; congr 1; omega

/-- Overwriting bytes inside a memory that lists exactly 0 to n-1. -/
theorem Memory.lists_overwrite (bs : List Byte) {m : Memory} {n a : Nat} (h : m.map Prod.fst = List.range n)
    (hb : bs.length = 0 ∨ a + bs.length ≤ n) : (m.writeList a bs).map Prod.fst = List.range n := by
  induction bs generalizing m a with
  | nil => simpa [Memory.writeList] using h
  | cons b bs ih =>
    simp only [List.length_cons] at hb
    have ha : a ∈ m.map Prod.fst := by rw [h, List.mem_range]; omega
    have h1 := (Memory.write_addresses_of_mem (Memory.wf_of_lists h) ha b).trans h
    exact ih h1 (by omega)

/-- Truncating above every listed address changes nothing. -/
theorem Memory.truncate_of_lists {m : Memory} {n k : Nat} (h : m.map Prod.fst = List.range n) (hk : n ≤ k) :
    m.truncate k = m := by
  refine List.filter_eq_self.2 (fun c hc => ?_)
  have : c.1 ∈ m.map Prod.fst := List.mem_map_of_mem hc
  rw [h, List.mem_range] at this
  simp; omega

/-- Truncating to 0 forgets everything. -/
@[simp] theorem Memory.truncate_zero (m : Memory) : m.truncate 0 = [] := by
  simp [Memory.truncate]

/-! ### The reset contents of TEXT -/

/-- After reset TEXT lists exactly its cells. -/
theorem resetText_lists (c : Params) (d : Nat) : (resetText c d).map Prod.fst = List.range c.textSize := by
  simp [resetText, Function.comp_def]

/-- A listed address reads as what was listed. -/
theorem Memory.read?_map_range (f : Nat → Byte) (n a : Nat) :
    Memory.read? ((List.range n).map (fun x => (x, f x))) a = if a < n then some (f a) else none := by
  induction n with
  | zero => simp [Memory.read?]
  | succ n ih =>
    have hsplit : ∀ (m m' : Memory) (x : Nat), Memory.read? (m ++ m') x = (m.read? x).or (m'.read? x) := by
      intro m m' x
      induction m with
      | nil => simp [Memory.read?]
      | cons c m ihm =>
        obtain ⟨y, v⟩ := c
        simp only [List.cons_append, Memory.read?, ihm]
        split <;> simp
    rw [List.range_succ, List.map_append, hsplit, ih]
    simp only [List.map_cons, List.map_nil, Memory.read?]
    by_cases h : a < n
    · simp [h, Nat.lt_succ_of_lt h]
    · by_cases h2 : a = n
      · subst h2; simp
      · have h3 : ¬ a < n + 1 := by omega
        simp [h, h2, h3]

/-- Every cell of TEXT reads after reset as its byte of TEXT_INIT. -/
theorem read?_resetText (c : Params) (d a : Nat) : (resetText c d).read? a =
    if a < c.textSize then some (c.textInit.getD a (Config.unspecifiedByte d a)) else none :=
  Memory.read?_map_range _ _ _

/-! ### Lists of bytes -/

@[simp] theorem Memory.readList_length (m : Memory) (d a n : Nat) : (m.readList d a n).length = n := by
  simp [Memory.readList]

/-- What is appended at `n` follows the `n` bytes there before. -/
theorem Memory.readList_append (m : Memory) (d n : Nat) (bs : List Byte) :
    (m.writeList n bs).readList d 0 (n + bs.length) = m.readList d 0 n ++ bs := by
  apply List.ext_getElem
  · simp
  · intro i h1 h2
    simp only [Memory.readList_length] at h1
    simp only [Memory.readList, List.getElem_map, List.getElem_range, Nat.zero_add, Memory.read,
      Memory.read?_writeList]
    by_cases h : i < n
    · rw [if_neg (by omega), List.getElem_append_left (by simpa using h)]
      simp
    · have h3 : i - n < bs.length := by omega
      rw [if_pos (by omega), List.getElem_append_right (by simpa using h)]
      simp [h3]

end Sys2Proof.Machine
end

