-- ==== Sys2Proof/Laws/State.lean ====
section
/-! SUPPORT. What each register update does to each field of the state: one lemma per field per update, all true by
computation, so that no proof unfolds a record update. -/

namespace Sys2Proof.Machine

/-! ### `State.clearOut` -/

@[simp] theorem State.clearOut_cfg (s : State) : (s.clearOut).cfg = s.cfg := rfl
@[simp] theorem State.clearOut_framing (s : State) : (s.clearOut).framing = s.framing := rfl
@[simp] theorem State.clearOut_len (s : State) : (s.clearOut).len = s.len := rfl
@[simp] theorem State.clearOut_buf (s : State) : (s.clearOut).buf = s.buf := rfl
@[simp] theorem State.clearOut_text (s : State) : (s.clearOut).text = s.text := rfl
@[simp] theorem State.clearOut_level (s : State) : (s.clearOut).level = s.level := rfl
@[simp] theorem State.clearOut_decay (s : State) : (s.clearOut).decay = s.decay := rfl
@[simp] theorem State.clearOut_dirty (s : State) : (s.clearOut).dirty = s.dirty := rfl
@[simp] theorem State.clearOut_out (s : State) : (s.clearOut).out = some Out.zero := rfl
@[simp] theorem State.clearOut_pending (s : State) : (s.clearOut).pending = s.pending := rfl
@[simp] theorem State.clearOut_draws (s : State) : (s.clearOut).draws = s.draws := rfl

/-! ### `State.raise` -/

@[simp] theorem State.raise_cfg (s : State) (c : Cond) : (s.raise c).cfg = s.cfg := rfl
@[simp] theorem State.raise_framing (s : State) (c : Cond) : (s.raise c).framing = s.framing := rfl
@[simp] theorem State.raise_len (s : State) (c : Cond) : (s.raise c).len = s.len := rfl
@[simp] theorem State.raise_buf (s : State) (c : Cond) : (s.raise c).buf = s.buf := rfl
@[simp] theorem State.raise_text (s : State) (c : Cond) : (s.raise c).text = s.text := rfl
@[simp] theorem State.raise_level (s : State) (c : Cond) : (s.raise c).level = s.level := rfl
@[simp] theorem State.raise_decay (s : State) (c : Cond) : (s.raise c).decay = s.decay := rfl
@[simp] theorem State.raise_dirty (s : State) (c : Cond) : (s.raise c).dirty = s.dirty := rfl
@[simp] theorem State.raise_out (s : State) (c : Cond) : (s.raise c).out = some { s.outNow with cond := c } := rfl
@[simp] theorem State.raise_pending (s : State) (c : Cond) : (s.raise c).pending = s.pending := rfl
@[simp] theorem State.raise_draws (s : State) (c : Cond) : (s.raise c).draws = s.draws := rfl

/-! ### `State.driveMessage` -/

@[simp] theorem State.driveMessage_cfg (s : State) (m : List Byte) : (s.driveMessage m).cfg = s.cfg := rfl
@[simp] theorem State.driveMessage_framing (s : State) (m : List Byte) : (s.driveMessage m).framing = s.framing := rfl
@[simp] theorem State.driveMessage_len (s : State) (m : List Byte) : (s.driveMessage m).len = s.len := rfl
@[simp] theorem State.driveMessage_buf (s : State) (m : List Byte) : (s.driveMessage m).buf = s.buf := rfl
@[simp] theorem State.driveMessage_text (s : State) (m : List Byte) : (s.driveMessage m).text = s.text := rfl
@[simp] theorem State.driveMessage_level (s : State) (m : List Byte) : (s.driveMessage m).level = s.level := rfl
@[simp] theorem State.driveMessage_decay (s : State) (m : List Byte) : (s.driveMessage m).decay = s.decay := rfl
@[simp] theorem State.driveMessage_dirty (s : State) (m : List Byte) : (s.driveMessage m).dirty = s.dirty := rfl
@[simp] theorem State.driveMessage_out (s : State) (m : List Byte) : (s.driveMessage m).out = some { s.outNow with msgValid := true, msgLen := s.cfg.toLen m.length, msg := m } := rfl
@[simp] theorem State.driveMessage_pending (s : State) (m : List Byte) : (s.driveMessage m).pending = s.pending := rfl
@[simp] theorem State.driveMessage_draws (s : State) (m : List Byte) : (s.driveMessage m).draws = s.draws := rfl

/-! ### `State.driveWritten` -/

@[simp] theorem State.driveWritten_cfg (s : State) (n : Nat) : (s.driveWritten n).cfg = s.cfg := rfl
@[simp] theorem State.driveWritten_framing (s : State) (n : Nat) : (s.driveWritten n).framing = s.framing := rfl
@[simp] theorem State.driveWritten_len (s : State) (n : Nat) : (s.driveWritten n).len = s.len := rfl
@[simp] theorem State.driveWritten_buf (s : State) (n : Nat) : (s.driveWritten n).buf = s.buf := rfl
@[simp] theorem State.driveWritten_text (s : State) (n : Nat) : (s.driveWritten n).text = s.text := rfl
@[simp] theorem State.driveWritten_level (s : State) (n : Nat) : (s.driveWritten n).level = s.level := rfl
@[simp] theorem State.driveWritten_decay (s : State) (n : Nat) : (s.driveWritten n).decay = s.decay := rfl
@[simp] theorem State.driveWritten_dirty (s : State) (n : Nat) : (s.driveWritten n).dirty = s.dirty := rfl
@[simp] theorem State.driveWritten_out (s : State) (n : Nat) : (s.driveWritten n).out = some { s.outNow with written := BitVec.ofNat 7 n } := rfl
@[simp] theorem State.driveWritten_pending (s : State) (n : Nat) : (s.driveWritten n).pending = s.pending := rfl
@[simp] theorem State.driveWritten_draws (s : State) (n : Nat) : (s.driveWritten n).draws = s.draws := rfl

/-! ### `State.driveCols` -/

@[simp] theorem State.driveCols_cfg (s : State) (cols : List Byte) : (s.driveCols cols).cfg = s.cfg := rfl
@[simp] theorem State.driveCols_framing (s : State) (cols : List Byte) : (s.driveCols cols).framing = s.framing := rfl
@[simp] theorem State.driveCols_len (s : State) (cols : List Byte) : (s.driveCols cols).len = s.len := rfl
@[simp] theorem State.driveCols_buf (s : State) (cols : List Byte) : (s.driveCols cols).buf = s.buf := rfl
@[simp] theorem State.driveCols_text (s : State) (cols : List Byte) : (s.driveCols cols).text = s.text := rfl
@[simp] theorem State.driveCols_level (s : State) (cols : List Byte) : (s.driveCols cols).level = s.level := rfl
@[simp] theorem State.driveCols_decay (s : State) (cols : List Byte) : (s.driveCols cols).decay = s.decay := rfl
@[simp] theorem State.driveCols_dirty (s : State) (cols : List Byte) : (s.driveCols cols).dirty = s.dirty := rfl
@[simp] theorem State.driveCols_out (s : State) (cols : List Byte) : (s.driveCols cols).out = some { s.outNow with cols := cols } := rfl
@[simp] theorem State.driveCols_pending (s : State) (cols : List Byte) : (s.driveCols cols).pending = s.pending := rfl
@[simp] theorem State.driveCols_draws (s : State) (cols : List Byte) : (s.driveCols cols).draws = s.draws := rfl

/-! ### `State.setFraming` -/

@[simp] theorem State.setFraming_cfg (s : State) (f : Framing) : (s.setFraming f).cfg = s.cfg := rfl
@[simp] theorem State.setFraming_framing (s : State) (f : Framing) : (s.setFraming f).framing = f := rfl
@[simp] theorem State.setFraming_len (s : State) (f : Framing) : (s.setFraming f).len = s.len := rfl
@[simp] theorem State.setFraming_buf (s : State) (f : Framing) : (s.setFraming f).buf = s.buf := rfl
@[simp] theorem State.setFraming_text (s : State) (f : Framing) : (s.setFraming f).text = s.text := rfl
@[simp] theorem State.setFraming_level (s : State) (f : Framing) : (s.setFraming f).level = s.level := rfl
@[simp] theorem State.setFraming_decay (s : State) (f : Framing) : (s.setFraming f).decay = s.decay := rfl
@[simp] theorem State.setFraming_dirty (s : State) (f : Framing) : (s.setFraming f).dirty = s.dirty := rfl
@[simp] theorem State.setFraming_out (s : State) (f : Framing) : (s.setFraming f).out = s.out := rfl
@[simp] theorem State.setFraming_pending (s : State) (f : Framing) : (s.setFraming f).pending = s.pending := rfl
@[simp] theorem State.setFraming_draws (s : State) (f : Framing) : (s.setFraming f).draws = s.draws := rfl

/-! ### `State.setLen` -/

@[simp] theorem State.setLen_cfg (s : State) (n : Nat) : (s.setLen n).cfg = s.cfg := rfl
@[simp] theorem State.setLen_framing (s : State) (n : Nat) : (s.setLen n).framing = s.framing := rfl
@[simp] theorem State.setLen_len (s : State) (n : Nat) : (s.setLen n).len = s.cfg.toLen n := rfl
@[simp] theorem State.setLen_buf (s : State) (n : Nat) : (s.setLen n).buf = s.buf.truncate n := rfl
@[simp] theorem State.setLen_text (s : State) (n : Nat) : (s.setLen n).text = s.text := rfl
@[simp] theorem State.setLen_level (s : State) (n : Nat) : (s.setLen n).level = s.level := rfl
@[simp] theorem State.setLen_decay (s : State) (n : Nat) : (s.setLen n).decay = s.decay := rfl
@[simp] theorem State.setLen_dirty (s : State) (n : Nat) : (s.setLen n).dirty = s.dirty := rfl
@[simp] theorem State.setLen_out (s : State) (n : Nat) : (s.setLen n).out = s.out := rfl
@[simp] theorem State.setLen_pending (s : State) (n : Nat) : (s.setLen n).pending = s.pending := rfl
@[simp] theorem State.setLen_draws (s : State) (n : Nat) : (s.setLen n).draws = s.draws := rfl

/-! ### `State.setDirty` -/

@[simp] theorem State.setDirty_cfg (s : State) (b : Bool) : (s.setDirty b).cfg = s.cfg := rfl
@[simp] theorem State.setDirty_framing (s : State) (b : Bool) : (s.setDirty b).framing = s.framing := rfl
@[simp] theorem State.setDirty_len (s : State) (b : Bool) : (s.setDirty b).len = s.len := rfl
@[simp] theorem State.setDirty_buf (s : State) (b : Bool) : (s.setDirty b).buf = s.buf := rfl
@[simp] theorem State.setDirty_text (s : State) (b : Bool) : (s.setDirty b).text = s.text := rfl
@[simp] theorem State.setDirty_level (s : State) (b : Bool) : (s.setDirty b).level = s.level := rfl
@[simp] theorem State.setDirty_decay (s : State) (b : Bool) : (s.setDirty b).decay = s.decay := rfl
@[simp] theorem State.setDirty_dirty (s : State) (b : Bool) : (s.setDirty b).dirty = b := rfl
@[simp] theorem State.setDirty_out (s : State) (b : Bool) : (s.setDirty b).out = s.out := rfl
@[simp] theorem State.setDirty_pending (s : State) (b : Bool) : (s.setDirty b).pending = s.pending := rfl
@[simp] theorem State.setDirty_draws (s : State) (b : Bool) : (s.setDirty b).draws = s.draws := rfl

/-! ### `State.setLevel` -/

@[simp] theorem State.setLevel_cfg (s : State) (c : BitVec 3) (l : BitVec 4) : (s.setLevel c l).cfg = s.cfg := rfl
@[simp] theorem State.setLevel_framing (s : State) (c : BitVec 3) (l : BitVec 4) : (s.setLevel c l).framing = s.framing := rfl
@[simp] theorem State.setLevel_len (s : State) (c : BitVec 3) (l : BitVec 4) : (s.setLevel c l).len = s.len := rfl
@[simp] theorem State.setLevel_buf (s : State) (c : BitVec 3) (l : BitVec 4) : (s.setLevel c l).buf = s.buf := rfl
@[simp] theorem State.setLevel_text (s : State) (c : BitVec 3) (l : BitVec 4) : (s.setLevel c l).text = s.text := rfl
@[simp] theorem State.setLevel_level (s : State) (c : BitVec 3) (l : BitVec 4) : (s.setLevel c l).level = s.level.set c.toNat l c.isLt := rfl
@[simp] theorem State.setLevel_decay (s : State) (c : BitVec 3) (l : BitVec 4) : (s.setLevel c l).decay = s.decay := rfl
@[simp] theorem State.setLevel_dirty (s : State) (c : BitVec 3) (l : BitVec 4) : (s.setLevel c l).dirty = s.dirty := rfl
@[simp] theorem State.setLevel_out (s : State) (c : BitVec 3) (l : BitVec 4) : (s.setLevel c l).out = s.out := rfl
@[simp] theorem State.setLevel_pending (s : State) (c : BitVec 3) (l : BitVec 4) : (s.setLevel c l).pending = s.pending := rfl
@[simp] theorem State.setLevel_draws (s : State) (c : BitVec 3) (l : BitVec 4) : (s.setLevel c l).draws = s.draws := rfl

/-! ### `State.setDecay` -/

@[simp] theorem State.setDecay_cfg (s : State) (c : BitVec 3) (d : Int) : (s.setDecay c d).cfg = s.cfg := rfl
@[simp] theorem State.setDecay_framing (s : State) (c : BitVec 3) (d : Int) : (s.setDecay c d).framing = s.framing := rfl
@[simp] theorem State.setDecay_len (s : State) (c : BitVec 3) (d : Int) : (s.setDecay c d).len = s.len := rfl
@[simp] theorem State.setDecay_buf (s : State) (c : BitVec 3) (d : Int) : (s.setDecay c d).buf = s.buf := rfl
@[simp] theorem State.setDecay_text (s : State) (c : BitVec 3) (d : Int) : (s.setDecay c d).text = s.text := rfl
@[simp] theorem State.setDecay_level (s : State) (c : BitVec 3) (d : Int) : (s.setDecay c d).level = s.level := rfl
@[simp] theorem State.setDecay_decay (s : State) (c : BitVec 3) (d : Int) : (s.setDecay c d).decay = s.decay.set c.toNat (s.cfg.toDecay d) c.isLt := rfl
@[simp] theorem State.setDecay_dirty (s : State) (c : BitVec 3) (d : Int) : (s.setDecay c d).dirty = s.dirty := rfl
@[simp] theorem State.setDecay_out (s : State) (c : BitVec 3) (d : Int) : (s.setDecay c d).out = s.out := rfl
@[simp] theorem State.setDecay_pending (s : State) (c : BitVec 3) (d : Int) : (s.setDecay c d).pending = s.pending := rfl
@[simp] theorem State.setDecay_draws (s : State) (c : BitVec 3) (d : Int) : (s.setDecay c d).draws = s.draws := rfl

/-! ### `State.applyReset` -/

@[simp] theorem State.applyReset_cfg (s : State) : (s.applyReset).cfg = s.cfg := rfl
@[simp] theorem State.applyReset_framing (s : State) : (s.applyReset).framing = .idle := rfl
@[simp] theorem State.applyReset_len (s : State) : (s.applyReset).len = 0 := rfl
@[simp] theorem State.applyReset_buf (s : State) : (s.applyReset).buf = [] := rfl
@[simp] theorem State.applyReset_text (s : State) : (s.applyReset).text = resetText s.cfg s.draws := rfl
@[simp] theorem State.applyReset_level (s : State) : (s.applyReset).level = Vector.replicate 8 0 := rfl
@[simp] theorem State.applyReset_decay (s : State) : (s.applyReset).decay = Vector.replicate 8 0 := rfl
@[simp] theorem State.applyReset_dirty (s : State) : (s.applyReset).dirty = false := rfl
@[simp] theorem State.applyReset_out (s : State) : (s.applyReset).out = s.out := rfl
@[simp] theorem State.applyReset_pending (s : State) : (s.applyReset).pending = s.pending := rfl
@[simp] theorem State.applyReset_draws (s : State) : (s.applyReset).draws = s.draws := rfl

/-! ### `State.setBuf` -/

@[simp] theorem State.setBuf_cfg (s : State) (m : Memory) : (s.setBuf m).cfg = s.cfg := rfl
@[simp] theorem State.setBuf_framing (s : State) (m : Memory) : (s.setBuf m).framing = s.framing := rfl
@[simp] theorem State.setBuf_len (s : State) (m : Memory) : (s.setBuf m).len = s.len := rfl
@[simp] theorem State.setBuf_buf (s : State) (m : Memory) : (s.setBuf m).buf = m := rfl
@[simp] theorem State.setBuf_text (s : State) (m : Memory) : (s.setBuf m).text = s.text := rfl
@[simp] theorem State.setBuf_level (s : State) (m : Memory) : (s.setBuf m).level = s.level := rfl
@[simp] theorem State.setBuf_decay (s : State) (m : Memory) : (s.setBuf m).decay = s.decay := rfl
@[simp] theorem State.setBuf_dirty (s : State) (m : Memory) : (s.setBuf m).dirty = s.dirty := rfl
@[simp] theorem State.setBuf_out (s : State) (m : Memory) : (s.setBuf m).out = s.out := rfl
@[simp] theorem State.setBuf_pending (s : State) (m : Memory) : (s.setBuf m).pending = s.pending := rfl
@[simp] theorem State.setBuf_draws (s : State) (m : Memory) : (s.setBuf m).draws = s.draws := rfl
@[simp] theorem State.setBuf_outNow (s : State) (m : Memory) : (s.setBuf m).outNow = s.outNow := rfl

/-! ### `State.setText` -/

@[simp] theorem State.setText_cfg (s : State) (m : Memory) : (s.setText m).cfg = s.cfg := rfl
@[simp] theorem State.setText_framing (s : State) (m : Memory) : (s.setText m).framing = s.framing := rfl
@[simp] theorem State.setText_len (s : State) (m : Memory) : (s.setText m).len = s.len := rfl
@[simp] theorem State.setText_buf (s : State) (m : Memory) : (s.setText m).buf = s.buf := rfl
@[simp] theorem State.setText_text (s : State) (m : Memory) : (s.setText m).text = m := rfl
@[simp] theorem State.setText_level (s : State) (m : Memory) : (s.setText m).level = s.level := rfl
@[simp] theorem State.setText_decay (s : State) (m : Memory) : (s.setText m).decay = s.decay := rfl
@[simp] theorem State.setText_dirty (s : State) (m : Memory) : (s.setText m).dirty = s.dirty := rfl
@[simp] theorem State.setText_out (s : State) (m : Memory) : (s.setText m).out = s.out := rfl
@[simp] theorem State.setText_pending (s : State) (m : Memory) : (s.setText m).pending = s.pending := rfl
@[simp] theorem State.setText_draws (s : State) (m : Memory) : (s.setText m).draws = s.draws := rfl
@[simp] theorem State.setText_outNow (s : State) (m : Memory) : (s.setText m).outNow = s.outNow := rfl

/-! ### The record driven so far -/

@[simp] theorem State.clearOut_outNow (s : State) : (s.clearOut).outNow = Out.zero := rfl
@[simp] theorem State.raise_outNow (s : State) (c : Cond) : (s.raise c).outNow = { s.outNow with cond := c } := rfl
@[simp] theorem State.driveMessage_outNow (s : State) (m : List Byte) : (s.driveMessage m).outNow = { s.outNow with msgValid := true, msgLen := s.cfg.toLen m.length, msg := m } := rfl
@[simp] theorem State.driveWritten_outNow (s : State) (n : Nat) : (s.driveWritten n).outNow = { s.outNow with written := BitVec.ofNat 7 n } := rfl
@[simp] theorem State.driveCols_outNow (s : State) (cols : List Byte) : (s.driveCols cols).outNow = { s.outNow with cols := cols } := rfl
@[simp] theorem State.setFraming_outNow (s : State) (f : Framing) : (s.setFraming f).outNow = s.outNow := rfl
@[simp] theorem State.setLen_outNow (s : State) (n : Nat) : (s.setLen n).outNow = s.outNow := rfl
@[simp] theorem State.setDirty_outNow (s : State) (b : Bool) : (s.setDirty b).outNow = s.outNow := rfl
@[simp] theorem State.setLevel_outNow (s : State) (c : BitVec 3) (l : BitVec 4) : (s.setLevel c l).outNow = s.outNow := rfl
@[simp] theorem State.setDecay_outNow (s : State) (c : BitVec 3) (d : Int) : (s.setDecay c d).outNow = s.outNow := rfl
@[simp] theorem State.applyReset_outNow (s : State) : (s.applyReset).outNow = s.outNow := rfl

/-! ### Channel registers -/

theorem State.levelOf_setLevel (s : State) (c d : BitVec 3) (l : BitVec 4) :
    (s.setLevel c l).levelOf d = if d = c then l else s.levelOf d := by
  simp only [State.levelOf, State.setLevel_level, Vector.getElem_set]
  by_cases h : d = c
  · simp [h]
  · have : c.toNat ≠ d.toNat := fun e => h (BitVec.eq_of_toNat_eq e.symm)
    simp [h, this]

theorem State.decayOf_setDecay (s : State) (c d : BitVec 3) (v : Int) :
    (s.setDecay c v).decayOf d = if d = c then s.cfg.toDecay v else s.decayOf d := by
  simp only [State.decayOf, State.setDecay_decay, Vector.getElem_set]
  by_cases h : d = c
  · simp [h]
  · have : c.toNat ≠ d.toNat := fun e => h (BitVec.eq_of_toNat_eq e.symm)
    simp [h, this]

/-- An update that leaves the level registers leaves every level. -/
theorem State.levelOf_congr {s t : State} (h : t.level = s.level) (c : BitVec 3) : t.levelOf c = s.levelOf c := by
  simp [State.levelOf, h]

/-- An update that leaves the decay registers leaves every decay. -/
theorem State.decayOf_congr {s t : State} (h : t.decay = s.decay) (c : BitVec 3) : t.decayOf c = s.decayOf c := by
  simp [State.decayOf, h]

@[simp] theorem State.setDecay_levelOf (s : State) (c d : BitVec 3) (v : Int) :
    (s.setDecay c v).levelOf d = s.levelOf d := rfl

@[simp] theorem State.setLevel_decayOf (s : State) (c d : BitVec 3) (l : BitVec 4) :
    (s.setLevel c l).decayOf d = s.decayOf d := rfl

/-- Two states agree when every field agrees. -/
theorem State.ext_fields {s t : State} (h1 : s.cfg = t.cfg) (h2 : s.framing = t.framing) (h3 : s.len = t.len)
    (h4 : s.buf = t.buf) (h5 : s.text = t.text) (h6 : s.level = t.level) (h7 : s.decay = t.decay)
    (h8 : s.dirty = t.dirty) (h9 : s.out = t.out) (h10 : s.pending = t.pending) (h11 : s.draws = t.draws) : s = t := by
  cases s; cases t; simp_all

end Sys2Proof.Machine
end

