-- ==== Sys2Proof/Laws/Ops.lean ====
section
/-! SUPPORT. For each shared operation, one lemma that says everything it can do; the provers cite these instead of
unfolding the operations. -/

namespace Sys2Proof.Machine

/-! ### Registers of a width that the configuration fixes -/

/-- A valid configuration has room in LEN for every length up to CAP (R7). -/
theorem Params.cap_lt_of_valid {c : Params} (h : c.valid = true) : c.cap < 2 ^ c.lenWidth := by
  simp only [Params.valid, decide_eq_true_eq] at h
  omega

/-- A length up to CAP is written to LEN as it is (R22). -/
theorem Params.toLen_of_le {c : Params} {n : Nat} (h : c.valid = true) (hn : n ≤ c.cap) : c.toLen n = n :=
  Nat.mod_eq_of_lt (Nat.lt_of_le_of_lt hn (Params.cap_lt_of_valid h))

/-- 0 is written to LEN as it is. -/
@[simp] theorem Params.toLen_zero (c : Params) : c.toLen 0 = 0 := Nat.zero_mod _

/-- 0 is written to DECAY as it is. -/
@[simp] theorem Params.toDecay_zero (c : Params) : c.toDecay 0 = 0 := Int.zero_bmod

/-- An integer that DECAY_W bits can hold is written to DECAY as it is (R28). -/
theorem Params.toDecay_of_fits {c : Params} {d : Int} (hw : 1 ≤ c.decayWidth)
    (h1 : -(2 ^ (c.decayWidth - 1) : Int) ≤ d) (h2 : d < 2 ^ (c.decayWidth - 1)) : c.toDecay d = d := by
  obtain ⟨k, hk⟩ : ∃ k, c.decayWidth = k + 1 := ⟨c.decayWidth - 1, by omega⟩
  have hc : ((2 ^ (k + 1) : Nat) : Int) = 2 * 2 ^ k := by push_cast; ring
  simp only [Params.toDecay, hk, Nat.add_sub_cancel] at h1 h2 ⊢
  exact Int.bmod_eq_of_le (by rw [hc]; omega) (by rw [hc]; omega)

/-! ### The frame of a transaction -/

/-- The block has a meaning exactly in a ready state. -/
theorem State.refusal?_eq_none_iff {s : State} : s.refusal? = none ↔ s.Ready := by
  simp only [State.refusal?, State.Ready]
  split <;> (try split) <;> simp_all

/-- Why a state is refused. -/
theorem State.refusal?_eq_some_iff {s : State} {r : Refusal} : s.refusal? = some r ↔
    (s.cfg.valid = false ∧ r = .invalidConfiguration) ∨
    (s.cfg.valid = true ∧ ¬ (s.framing = .idle ∨ s.framing = .accumulating) ∧ r = .illegalFraming) := by
  simp only [State.refusal?]
  split
  · next hc => split <;> simp_all [eq_comm (a := r)]
  · next hc => simp_all [eq_comm (a := r)]

/-- A guarded body goes on exactly from a ready state in which it succeeds. -/
theorem guarded_next_iff {s t : State} {body : State → Except Fault State} :
    guarded s body = .next t ↔ s.Ready ∧ body s = .ok t := by
  rw [← State.refusal?_eq_none_iff]
  simp only [guarded]
  split
  · next hr => simp [hr]
  · next hr => split <;> simp_all

/-- A guarded body faults exactly where it does so in a ready state. -/
theorem guarded_fault_iff {s : State} {e : Fault} {body : State → Except Fault State} :
    guarded s body = .fault e ↔ s.Ready ∧ body s = .error e := by
  rw [← State.refusal?_eq_none_iff]
  simp only [guarded]
  split
  · next hr => simp [hr]
  · next hr => split <;> simp_all

/-- A guarded body is refused exactly in a state that is not ready, with the reason by name. -/
theorem guarded_refused_iff {s : State} {r : Refusal} {body : State → Except Fault State} :
    guarded s body = .refused r ↔ s.refusal? = some r := by
  simp only [guarded]
  split
  · next hr => simp [hr]
  · next hr => split <;> simp_all

/-- A transaction goes on exactly from a ready state whose body succeeds. -/
theorem transact_next_iff {s t : State} {body : State → Except Fault State} :
    transact s body = .next t ↔ s.Ready ∧ body s.clearOut = .ok t := guarded_next_iff

/-- A ready state whose body succeeds goes on. -/
theorem transact_of_ok {s t : State} {body : State → Except Fault State} (h : s.Ready)
    (hb : body s.clearOut = .ok t) : transact s body = .next t := transact_next_iff.2 ⟨h, hb⟩

/-- A transaction faults exactly where its body does. -/
theorem transact_fault_iff {s : State} {e : Fault} {body : State → Except Fault State} :
    transact s body = .fault e ↔ s.Ready ∧ body s.clearOut = .error e := guarded_fault_iff

/-- A transaction is refused exactly in a state that is not ready, with the reason by name. -/
theorem transact_refused_iff {s : State} {r : Refusal} {body : State → Except Fault State} :
    transact s body = .refused r ↔ s.refusal? = some r := guarded_refused_iff

/-- An idle step goes on exactly from a ready state, and only drops the output record. -/
theorem idle_next_iff {s t : State} : idle s = .next t ↔ s.Ready ∧ t = { s with out := none } := by
  rw [idle, guarded_next_iff]
  simp [eq_comm (a := t)]

/-- An idle step is refused exactly where a transaction is. -/
theorem idle_refused_iff {s : State} {r : Refusal} : idle s = .refused r ↔ s.refusal? = some r := guarded_refused_iff

/-- An idle step never faults. -/
theorem idle_never_faults (s : State) (e : Fault) : idle s ≠ .fault e := by
  rw [idle, ne_eq, guarded_fault_iff]
  simp

/-! ### Checked writes -/

/-- A write to BUF inside its bound. -/
theorem State.writeBuf_of_le {s : State} {a : Nat} {bs : List Byte} (h : bs.length = 0 ∨ a + bs.length ≤ s.cfg.cap) :
    s.writeBuf a bs = .ok (s.setBuf (s.buf.writeList a bs)) := if_pos h

/-- A write to TEXT inside its bound. -/
theorem State.writeText_of_le {s : State} {a : Nat} {bs : List Byte}
    (h : bs.length = 0 ∨ a + bs.length ≤ s.cfg.textSize) :
    s.writeText a bs = .ok (s.setText (s.text.writeList a bs)) := if_pos h

/-! ### Append (R81) -/

/-- A fragment that fits is appended whole. -/
theorem append_of_fits {s : State} {bs : List Byte} (h : s.len + bs.length ≤ s.cfg.cap) :
    append bs s = .ok (.appended
      ((s.setBuf (s.buf.writeList s.len bs)).setLen (s.len + bs.length))) := by
  simp only [append, if_neg (by omega : ¬ s.cfg.cap < s.len + bs.length),
    State.writeBuf_of_le (Or.inr h)]

/-- A fragment that does not fit writes nothing, empties the buffer and reports FRAMING_OVERFLOW. -/
theorem append_of_overflow {s : State} {bs : List Byte} (h : s.cfg.cap < s.len + bs.length) :
    append bs s = .ok (.overflow (((s.setLen 0).setFraming .idle).raise .framingOverflow)) := by
  simp only [append, if_pos h]

/-- `Append` never faults: its own bound check keeps the write inside BUF. -/
theorem append_never_faults (bs : List Byte) (s : State) (e : Fault) : append bs s ≠ .error e := by
  by_cases h : s.cfg.cap < s.len + bs.length
  · simp [append_of_overflow h]
  · simp [append_of_fits (by omega : s.len + bs.length ≤ s.cfg.cap)]

/-! ### Decode (R100) -/

/-- The payload ends at a terminator inside the message. -/
theorem payloadLength?_lt {c : Params} {m : List Byte} {p : Nat} (h : payloadLength? c m = some p) :
    c.payloadIndex + p < m.length := by
  have h1 : p < (m.drop c.payloadIndex).length := by
    simp only [payloadLength?, List.findIdx?_eq_some_iff_getElem] at h
    exact h.1
  simp only [List.length_drop] at h1
  omega

/-- The bytes written are exactly `writtenCount` many. -/
theorem written_length {c : Params} {m : List Byte} {p off : Nat} (h : payloadLength? c m = some p) :
    ((m.drop c.payloadIndex).take (writtenCount c off p)).length = writtenCount c off p := by
  have := payloadLength?_lt h
  simp only [List.length_take, List.length_drop, writtenCount]
  omega

/-- Everything `Decode` can do: it rejects by predicate, rejects for want of a terminator, or writes the in-bounds
prefix and sets DIRTY. -/
theorem displayDecode_cases (m : List Byte) (s : State) :
    (displayPredicate s.cfg m = false ∧ displayDecode m s = .ok (s.raise .malformedPredicate)) ∨
    (displayPredicate s.cfg m = true ∧ payloadLength? s.cfg m = none ∧
      displayDecode m s = .ok (s.raise .malformedNoTerminator)) ∨
    (∃ p, displayPredicate s.cfg m = true ∧ payloadLength? s.cfg m = some p ∧
      displayDecode m s = .ok
        ((((s.setText (s.text.writeList (messageOffset s.cfg m)
              ((m.drop s.cfg.payloadIndex).take (writtenCount s.cfg (messageOffset s.cfg m) p)))).driveWritten
            (writtenCount s.cfg (messageOffset s.cfg m) p)).raise
          (if s.cfg.textSize < messageOffset s.cfg m + p then .regionOverflow else .applied)).setDirty true)) := by
  by_cases hp : displayPredicate s.cfg m = true
  · right
    cases ht : payloadLength? s.cfg m with
    | none => exact Or.inl ⟨hp, rfl, by simp only [displayDecode, if_pos hp, ht]⟩
    | some p =>
      refine Or.inr ⟨p, hp, rfl, ?_⟩
      have hb : ((m.drop s.cfg.payloadIndex).take (writtenCount s.cfg (messageOffset s.cfg m) p)).length = 0 ∨
          messageOffset s.cfg m +
            ((m.drop s.cfg.payloadIndex).take (writtenCount s.cfg (messageOffset s.cfg m) p)).length
              ≤ s.cfg.textSize := by
        rw [written_length ht]; simp only [writtenCount]; omega
      simp only [displayDecode, if_pos hp, ht, State.writeText_of_le hb]
  · left
    simp only [Bool.not_eq_true] at hp
    exact ⟨hp, by simp [displayDecode, hp]⟩

/-! ### The fragment forms (R82 to R86) -/

/-- SX_CONT where the fragment fits. -/
theorem sxContBody_of_fits {s : State} {b1 b2 b3 : Byte} (h : s.freshStart.len + 3 ≤ s.freshStart.cfg.cap) :
    sxContBody b1 b2 b3 s = .ok
      (((s.freshStart.setBuf (s.freshStart.buf.writeList s.freshStart.len [b1, b2, b3])).setLen
        (s.freshStart.len + 3)).setFraming .accumulating) := by
  have h' : s.freshStart.len + [b1, b2, b3].length ≤ s.freshStart.cfg.cap := h
  simp only [sxContBody, append_of_fits h']
  rfl

/-- SX_CONT where the fragment would overflow. -/
theorem sxContBody_of_overflow {s : State} {b1 b2 b3 : Byte}
    (h : s.freshStart.cfg.cap < s.freshStart.len + 3) :
    sxContBody b1 b2 b3 s = .ok (((s.freshStart.setLen 0).setFraming .idle).raise .framingOverflow) := by
  have h' : s.freshStart.cfg.cap < s.freshStart.len + [b1, b2, b3].length := h
  simp only [sxContBody, append_of_overflow h']

/-- Completion always succeeds, and ends Idle with an empty buffer. -/
theorem complete_ok (s : State) : ∃ t, displayDecode s.message (s.driveMessage s.message) = .ok t ∧
    complete s = .ok ((t.setLen 0).setFraming .idle) := by
  rcases displayDecode_cases s.message (s.driveMessage s.message) with ⟨_, h⟩ | ⟨_, _, h⟩ | ⟨p, _, _, h⟩ <;>
    exact ⟨_, h, by simp only [complete, h]⟩

/-- A terminal fragment that fits. -/
theorem sxEndBody_of_fits {s : State} {bs : List Byte} (h : s.len + bs.length ≤ s.cfg.cap) :
    sxEndBody bs s = complete
      (((s.setBuf (s.buf.writeList s.len bs)).setLen (s.len + bs.length)).setFraming .ended) := by
  simp only [sxEndBody, append_of_fits h]

/-- A terminal fragment that would overflow. -/
theorem sxEndBody_of_overflow {s : State} {bs : List Byte} (h : s.cfg.cap < s.len + bs.length) :
    sxEndBody bs s = .ok (((s.setLen 0).setFraming .idle).raise .framingOverflow) := by
  simp only [sxEndBody, append_of_overflow h]

/-! ### RENDER (R121) -/

/-- RENDER of a channel at level 0. -/
theorem renderBody_of_empty {s : State} {ch : BitVec 3} (h : s.levelOf ch = 0) :
    renderBody ch s = .ok (s.driveCols (emptyBar s.cfg)) := if_pos h

/-- RENDER of a channel whose level is not 0. -/
theorem renderBody_of_lit {s : State} {ch : BitVec 3} (h : s.levelOf ch ≠ 0) :
    renderBody ch s = .ok ((((s.setLevel ch (clampLevel s.cfg (s.levelOf ch))).setDecay ch
        (decayedOnce s.cfg (s.decayOf ch))).exhaust ch
          (extent s.cfg (clampLevel s.cfg (s.levelOf ch)) (s.decayOf ch))).driveCols
            (bar s.cfg (max (extent s.cfg (clampLevel s.cfg (s.levelOf ch)) (s.decayOf ch)) 0))) := if_neg h

/-! ### The memories of the reset state -/

/-- The reset contents of TEXT are in canonical form. -/
theorem resetText_wf (c : Params) (d : Nat) : (resetText c d).wf = true := Memory.wf_of_lists (resetText_lists c d)

/-- Both memories of the power-on reset state are in canonical form. -/
theorem State.reset_memories_wf : State.reset.buf.wf = true ∧ State.reset.text.wf = true :=
  ⟨rfl, resetText_wf _ _⟩

end Sys2Proof.Machine
end

