-- ==== Sys2Proof/Laws/PerInstr.lean ====
section
/-! SUPPORT. The family `RowMatch`, instruction by instruction: the word that the encoder writes selects the row of the
opcode table that carries the instruction's mnemonic (R76). -/

namespace Sys2Proof.Laws

/-- The encoder's word of `i` selects a row of the table with the mnemonic of `i`. -/
def RowMatch.Statement (i : Instr) : Prop :=
  ∃ r ∈ opcodeTable, r.mnemonic = mnemonic i ∧ encode i &&& r.mask = r.pattern

/-- A FEED word keeps its OPSEL and CIN under the table's FEED mask, whatever the payload bytes are. -/
theorem feedWord_and_mask (b0 b1 b2 b3 : Byte) :
    feedWord b0 b1 b2 b3 &&& 0x70F000000#35 = feedWord (b0 &&& 0x0F) 0 0 0 := by
  apply BitVec.eq_of_getLsbD_eq
  intro i hi
  simp only [feedWord, wordOf, BitVec.getLsbD_and, BitVec.getLsbD_append]
  interval_cases i <;> simp

/-- A word keeps its OPSEL under the table's OPSEL mask. -/
theorem wordOf_and_mask (o : BitVec 3) (d : BitVec 32) : wordOf o d &&& 0x700000000#35 = wordOf o 0 := by
  apply BitVec.eq_of_getLsbD_eq
  intro i hi
  simp only [wordOf, BitVec.getLsbD_and, BitVec.getLsbD_append]
  interval_cases i <;> simp

theorem RowMatch.ign0 : RowMatch.Statement .ign0 :=
  ⟨⟨"IGN0", 0x000000000, 0x70F000000⟩, by simp [opcodeTable], rfl, (feedWord_and_mask _ _ _ _).trans (by decide)⟩

theorem RowMatch.ign1 : RowMatch.Statement .ign1 :=
  ⟨⟨"IGN1", 0x001000000, 0x70F000000⟩, by simp [opcodeTable], rfl, (feedWord_and_mask _ _ _ _).trans (by decide)⟩

theorem RowMatch.ign2 : RowMatch.Statement .ign2 :=
  ⟨⟨"IGN2", 0x002000000, 0x70F000000⟩, by simp [opcodeTable], rfl, (feedWord_and_mask _ _ _ _).trans (by decide)⟩

theorem RowMatch.ign3 : RowMatch.Statement .ign3 :=
  ⟨⟨"IGN3", 0x003000000, 0x70F000000⟩, by simp [opcodeTable], rfl, (feedWord_and_mask _ _ _ _).trans (by decide)⟩

theorem RowMatch.sxCont (b1 b2 b3 : Byte) : RowMatch.Statement (.sxCont b1 b2 b3) :=
  ⟨⟨"SX_CONT", 0x004000000, 0x70F000000⟩, by simp [opcodeTable], rfl, (feedWord_and_mask _ _ _ _).trans (by decide)⟩

theorem RowMatch.sxEnd1 (b1 : Byte) : RowMatch.Statement (.sxEnd1 b1) :=
  ⟨⟨"SX_END1", 0x005000000, 0x70F000000⟩, by simp [opcodeTable], rfl, (feedWord_and_mask _ _ _ _).trans (by decide)⟩

theorem RowMatch.sxEnd2 (b1 b2 : Byte) : RowMatch.Statement (.sxEnd2 b1 b2) :=
  ⟨⟨"SX_END2", 0x006000000, 0x70F000000⟩, by simp [opcodeTable], rfl, (feedWord_and_mask _ _ _ _).trans (by decide)⟩

theorem RowMatch.sxEnd3 (b1 b2 b3 : Byte) : RowMatch.Statement (.sxEnd3 b1 b2 b3) :=
  ⟨⟨"SX_END3", 0x007000000, 0x70F000000⟩, by simp [opcodeTable], rfl, (feedWord_and_mask _ _ _ _).trans (by decide)⟩

theorem RowMatch.ign8 : RowMatch.Statement .ign8 :=
  ⟨⟨"IGN8", 0x008000000, 0x70F000000⟩, by simp [opcodeTable], rfl, (feedWord_and_mask _ _ _ _).trans (by decide)⟩

theorem RowMatch.ign9 : RowMatch.Statement .ign9 :=
  ⟨⟨"IGN9", 0x009000000, 0x70F000000⟩, by simp [opcodeTable], rfl, (feedWord_and_mask _ _ _ _).trans (by decide)⟩

theorem RowMatch.ignA : RowMatch.Statement .ignA :=
  ⟨⟨"IGNA", 0x00A000000, 0x70F000000⟩, by simp [opcodeTable], rfl, (feedWord_and_mask _ _ _ _).trans (by decide)⟩

theorem RowMatch.ignB : RowMatch.Statement .ignB :=
  ⟨⟨"IGNB", 0x00B000000, 0x70F000000⟩, by simp [opcodeTable], rfl, (feedWord_and_mask _ _ _ _).trans (by decide)⟩

theorem RowMatch.ignC : RowMatch.Statement .ignC :=
  ⟨⟨"IGNC", 0x00C000000, 0x70F000000⟩, by simp [opcodeTable], rfl, (feedWord_and_mask _ _ _ _).trans (by decide)⟩

theorem RowMatch.pressure (b2 : Byte) : RowMatch.Statement (.pressure b2) :=
  ⟨⟨"PRESSURE", 0x00D000000, 0x70F000000⟩, by simp [opcodeTable], rfl, (feedWord_and_mask _ _ _ _).trans (by decide)⟩

theorem RowMatch.ignE : RowMatch.Statement .ignE :=
  ⟨⟨"IGNE", 0x00E000000, 0x70F000000⟩, by simp [opcodeTable], rfl, (feedWord_and_mask _ _ _ _).trans (by decide)⟩

theorem RowMatch.ignF : RowMatch.Statement .ignF :=
  ⟨⟨"IGNF", 0x00F000000, 0x70F000000⟩, by simp [opcodeTable], rfl, (feedWord_and_mask _ _ _ _).trans (by decide)⟩

theorem RowMatch.render (ch : BitVec 3) : RowMatch.Statement (.render ch) :=
  ⟨⟨"RENDER", 0x100000000, 0x700000000⟩, by simp [opcodeTable], rfl, (wordOf_and_mask _ _).trans (by decide)⟩

theorem RowMatch.clrDirty : RowMatch.Statement .clrDirty :=
  ⟨⟨"CLRDIRTY", 0x200000000, 0x700000000⟩, by simp [opcodeTable], rfl, (wordOf_and_mask _ _).trans (by decide)⟩

theorem RowMatch.reset : RowMatch.Statement .reset :=
  ⟨⟨"RESET", 0x300000000, 0x700000000⟩, by simp [opcodeTable], rfl, (wordOf_and_mask _ _).trans (by decide)⟩

theorem RowMatch.rsv4 : RowMatch.Statement .rsv4 :=
  ⟨⟨"RSV4", 0x400000000, 0x700000000⟩, by simp [opcodeTable], rfl, (wordOf_and_mask _ _).trans (by decide)⟩

theorem RowMatch.rsv5 : RowMatch.Statement .rsv5 :=
  ⟨⟨"RSV5", 0x500000000, 0x700000000⟩, by simp [opcodeTable], rfl, (wordOf_and_mask _ _).trans (by decide)⟩

theorem RowMatch.rsv6 : RowMatch.Statement .rsv6 :=
  ⟨⟨"RSV6", 0x600000000, 0x700000000⟩, by simp [opcodeTable], rfl, (wordOf_and_mask _ _).trans (by decide)⟩

theorem RowMatch.rsv7 : RowMatch.Statement .rsv7 :=
  ⟨⟨"RSV7", 0x700000000, 0x700000000⟩, by simp [opcodeTable], rfl, (wordOf_and_mask _ _).trans (by decide)⟩

end Sys2Proof.Laws
end

