-- ==== Sys2Proof/Tests/Slice0.lean ====
section
/-! SUPPORT. Tests on fixed values: decoding of words written out from the spec's encodings, one step each from the worked
examples and vectors of 95_test_vectors.md, the well-formedness smoke, and for each obligation with hypotheses a state and
operands that meet them. -/

namespace Sys2Proof.Tests

open Sys2Proof.Machine

/-! ### Helpers -/

/-- The state after a transaction, or the state before where there is none. -/
def after (i : Instr) (s : State) : State :=
  match exec i s with
  | .next t => t
  | _ => s

/-- The output record after a transaction. -/
def outAfter (i : Instr) (s : State) : Out := (after i s).outNow

/-- The reset state with a message under way. -/
def accumulating (m : List Byte) : State :=
  { State.reset with framing := .accumulating, len := m.length, buf := (List.range m.length).map (fun k => (k, m.getD k 0)) }

/-- The reset state with channel 3 at a level and a decay. -/
def meter3 (l : BitVec 4) (d : Int) : State := (State.reset.setLevel 3 l).setDecay 3 d

/-- A configuration outside R7: CAP = 0. -/
def badConfig : State := { State.reset with cfg := { Params.reference with cap := 0 } }

/-- A valid configuration with a LEN of 9 bits and DECAYs of 9 bits: CAP = 300 needs LEN_W = 9, and 128 + 2 × 8 = 144 is
at most 2^8 (R7, by hand). -/
def wide : Params := { Params.reference with cap := 300, lenWidth := 9, decayWidth := 9 }

/-- In that configuration, a message of the given length under way and channel 3 one render before -144. -/
def wideState (n : Nat) : State :=
  { (meter3 12 (-136)) with cfg := wide, framing := .accumulating, len := n }

/-- The 12 bytes before the last packet of vector L1-3. -/
def labelHead : List Byte := [0xF0, 0x00, 0x01, 0x02, 0x03, 0x12, 0x00, 0x41, 0x42, 0x43, 0x44, 0x45]

/-- The 12 bytes before the last packet of vector L1-4. -/
def edgeHead : List Byte := [0xF0, 0x00, 0x01, 0x02, 0x03, 0x12, 0x6E, 0x31, 0x32, 0x33, 0x34, 0x35]

/-- The 6 bytes before the terminal packets of vectors B2, B5 to B8, B10 and B13. -/
def header6 : List Byte := [0xF0, 0x00, 0x00, 0x00, 0x00, 0x12]

/-! ### Well-formedness: the one check, and the four terms that it refuses (R69) -/

theorem test_wellFormed_refuses_rsv4 : WellFormed .rsv4 = false := by decide
theorem test_wellFormed_refuses_rsv5 : WellFormed .rsv5 = false := by decide
theorem test_wellFormed_refuses_rsv6 : WellFormed .rsv6 = false := by decide
theorem test_wellFormed_refuses_rsv7 : WellFormed .rsv7 = false := by decide
theorem test_wellFormed_accepts_render : WellFormed (.render 7) = true := by decide

/-! ### Decoding: OPSEL, CABLE, CIN, B1, B2, B3 written out bit field by bit field (R60 to R68) -/

theorem test_decode_ign0 : decode 0b000_0000_0000_00000000_00000000_00000000 = .ign0 := by decide
theorem test_decode_ign1 : decode 0b000_0000_0001_00000000_00000000_00000000 = .ign1 := by decide
theorem test_decode_ign2 : decode 0b000_0000_0010_00000000_00000000_00000000 = .ign2 := by decide
theorem test_decode_ign3 : decode 0b000_0000_0011_00000000_00000000_00000000 = .ign3 := by decide
theorem test_decode_sxCont : decode 0b000_0001_0100_11110000_00000000_00000001 = .sxCont 0xF0 0x00 0x01 := by decide
theorem test_decode_sxEnd1 : decode 0b000_0000_0101_11110111_00110011_01010101 = .sxEnd1 0xF7 := by decide
theorem test_decode_sxEnd2 : decode 0b000_0000_0110_01000110_11110111_01010101 = .sxEnd2 0x46 0xF7 := by decide
theorem test_decode_sxEnd3 : decode 0b000_0000_0111_01000110_01000111_11110111 = .sxEnd3 0x46 0x47 0xF7 := by decide
theorem test_decode_ign8 : decode 0b000_0000_1000_00000000_00000000_00000000 = .ign8 := by decide
theorem test_decode_ign9 : decode 0b000_0000_1001_00000000_00000000_00000000 = .ign9 := by decide
theorem test_decode_ignA : decode 0b000_0000_1010_00000000_00000000_00000000 = .ignA := by decide
theorem test_decode_ignB : decode 0b000_0000_1011_10110000_00010000_01111111 = .ignB := by decide
theorem test_decode_ignC : decode 0b000_0000_1100_00000000_00000000_00000000 = .ignC := by decide
theorem test_decode_pressure : decode 0b000_0000_1101_11010000_00110100_00000000 = .pressure 0x34 := by decide
theorem test_decode_ignE : decode 0b000_0000_1110_00000000_00000000_00000000 = .ignE := by decide
theorem test_decode_ignF : decode 0b000_0000_1111_11111000_00000000_00000000 = .ignF := by decide
theorem test_decode_render : decode 0b001_1111_1111_11111111_11111111_11111011 = .render 3 := by decide
theorem test_decode_clrDirty : decode 0b010_0000_0000_00000000_00000000_00000000 = .clrDirty := by decide
theorem test_decode_reset : decode 0b011_0000_0000_00000000_00000000_00000000 = .reset := by decide
theorem test_decode_rsv4 : decode 0b100_0000_0000_00000000_00000000_00000000 = .rsv4 := by decide
theorem test_decode_rsv5 : decode 0b101_0000_0000_00000000_00000000_00000000 = .rsv5 := by decide
theorem test_decode_rsv6 : decode 0b110_0001_0010_00110100_01010110_01111000 = .rsv6 := by decide
theorem test_decode_rsv7 : decode 0b111_1111_1111_11111111_11111111_11111111 = .rsv7 := by decide

theorem test_decodeTableWord_sxCont : decodeTableWord 40 0x04F00001 = some (.sxCont 0xF0 0x00 0x01) := by decide
theorem test_decodeNumber_rejects_36_bits : decodeNumber 0x800000000 = .error .widerThanTransaction := by rfl

/-! ### The reassembler (vectors A) -/

/-- A1. -/
theorem test_sxCont_starts : (after (.sxCont 0xF0 0x00 0x01) State.reset).framing = .accumulating ∧
    (after (.sxCont 0xF0 0x00 0x01) State.reset).len = 3 ∧
    (after (.sxCont 0xF0 0x00 0x01) State.reset).buf = [(0, 0xF0), (1, 0x00), (2, 0x01)] := by decide

/-- A13: in Accumulating the bytes follow, whatever their values. -/
theorem test_sxCont_continues : (after (.sxCont 0xF7 0x00 0x00) (accumulating [0xF0, 0x00, 0x01])).len = 6 ∧
    (after (.sxCont 0xF7 0x00 0x00) (accumulating [0xF0, 0x00, 0x01])).buf.read? 3 = some 0xF7 := by decide

/-- A6, at LEN = 255: one more byte overflows. -/
theorem test_sxEnd1_overflows :
    (outAfter (.sxEnd1 0xF7) { State.reset with framing := .accumulating, len := 255 }).cond = .framingOverflow ∧
    (after (.sxEnd1 0xF7) { State.reset with framing := .accumulating, len := 255 }).framing = .idle := by decide

/-- A8. -/
theorem test_sxEnd1_idle : (outAfter (.sxEnd1 0x41) State.reset).msg = [0x41] ∧
    (outAfter (.sxEnd1 0x41) State.reset).cond = .malformedPredicate := by decide

/-- A9. -/
theorem test_sxEnd2_idle : (outAfter (.sxEnd2 0x01 0x02) State.reset).msg = [0x01, 0x02] ∧
    (after (.sxEnd2 0x01 0x02) State.reset).framing = .idle := by decide

/-- L1-1, its last word. -/
theorem test_sxEnd2_concatenates :
    (outAfter (.sxEnd2 0x77 0x88) (accumulating [0x11, 0x22, 0x33, 0x44, 0x55, 0x66])).msg =
      [0x11, 0x22, 0x33, 0x44, 0x55, 0x66, 0x77, 0x88] := by decide

/-- L1-3, its last word. -/
theorem test_sxEnd3_applies : (outAfter (.sxEnd3 0x46 0x47 0xF7) (accumulating labelHead)).cond = .applied ∧
    (outAfter (.sxEnd3 0x46 0x47 0xF7) (accumulating labelHead)).written = 7 ∧
    (after (.sxEnd3 0x46 0x47 0xF7) (accumulating labelHead)).text.read? 6 = some 0x47 ∧
    (after (.sxEnd3 0x46 0x47 0xF7) (accumulating labelHead)).dirty = true := by decide

/-- L1-4, its last word: two of five bytes are written. -/
theorem test_sxEnd1_truncates : (outAfter (.sxEnd1 0xF7) (accumulating edgeHead)).cond = .regionOverflow ∧
    (outAfter (.sxEnd1 0xF7) (accumulating edgeHead)).written = 2 ∧
    (after (.sxEnd1 0xF7) (accumulating edgeHead)).text.read? 111 = some 0x32 ∧
    (after (.sxEnd1 0xF7) (accumulating edgeHead)).text.read? 112 = none := by decide

/-- B2: a message of length 7 has no room for a terminator. -/
theorem test_sxEnd1_no_terminator : (outAfter (.sxEnd1 0x00) (accumulating header6)).cond = .malformedNoTerminator ∧
    (after (.sxEnd1 0x00) (accumulating header6)).dirty = false := by decide

/-- B6 and B7: offset 112 with no payload is applied, offset 113 is not. -/
theorem test_sxEnd2_offset_at_end : (outAfter (.sxEnd2 0x70 0xF7) (accumulating header6)).cond = .applied ∧
    (outAfter (.sxEnd2 0x71 0xF7) (accumulating header6)).cond = .regionOverflow := by decide

/-- B8: the byte at index 6 is the offset 247, not a terminator. -/
theorem test_sxEnd3_offset_is_no_terminator :
    (outAfter (.sxEnd3 0xF7 0x41 0xF7) (accumulating header6)).cond = .regionOverflow ∧
    (outAfter (.sxEnd3 0xF7 0x41 0xF7) (accumulating header6)).written = 0 := by decide

/-! ### The ignored forms (A10, A12) -/

theorem test_ignored_report : ignoredForms.map (fun i => (outAfter i State.reset).cond) =
    List.replicate 11 .ignored := by decide

theorem test_ignored_between_fragments : (after .ignB (accumulating [0xF0, 0x00, 0x01])).len = 3 ∧
    (after .ignB (accumulating [0xF0, 0x00, 0x01])).framing = .accumulating := by decide

/-! ### The meters (L1-5, vectors C) -/

/-- L1-5 and C1: B2 = 0xB4 acts as 0x34. -/
theorem test_pressure_loads : (after (.pressure 0x34) State.reset).levelOf 3 = 4 ∧
    (after (.pressure 0xB4) State.reset).levelOf 3 = 4 := by decide

/-- C9: a new event restarts the decay. -/
theorem test_pressure_restarts : (after (.pressure 0x32) (meter3 4 (-24))).levelOf 3 = 2 ∧
    (after (.pressure 0x32) (meter3 4 (-24))).decayOf 3 = 0 := by decide

/-- L1-6, rows 5 and 6: extent 2, then the computed -6 empties the bar and forces the level to 0. -/
theorem test_render_exhausts : (after (.render 3) (meter3 4 (-40))).levelOf 3 = 4 ∧
    (after (.render 3) (meter3 4 (-40))).decayOf 3 = (-48) ∧
    (after (.render 3) (meter3 4 (-48))).levelOf 3 = 0 ∧
    (after (.render 3) (meter3 4 (-48))).decayOf 3 = (-56) := by decide

/-- The base extents of section C for L = 0 to 12. -/
theorem test_base_extents : (List.range 13).map (fun l => baseExtent Params.reference (BitVec.ofNat 4 l)) =
    [0, 10, 21, 32, 42, 53, 64, 74, 85, 96, 106, 117, 128] := by decide

/-- L1-5: extent 42 lights the 21 even columns below it. -/
theorem test_lit_columns : (List.range 128).filter (columnLit 42) =
    [0, 2, 4, 6, 8, 10, 12, 14, 16, 18, 20, 22, 24, 26, 28, 30, 32, 34, 36, 38, 40] := by decide

/-! ### Host operations (D1, D3, D4) and observation (E) -/

theorem test_clrDirty : (after .clrDirty (State.reset.setDirty true)).dirty = false := by decide

theorem test_reset_abandons : (after .reset (accumulating [0xF0, 0x00, 0x01])).framing = .idle ∧
    (after .reset (accumulating [0xF0, 0x00, 0x01])).len = 0 ∧ (after .reset (meter3 4 (-8))).decayOf 3 = 0 := by
  decide

/-- E4 and E5. -/
theorem test_observe_values : (observe (accumulating [0xF0, 0x00, 0x01]) 0x080).toOption = some 1 ∧
    (observe (accumulating [0xF0, 0x00, 0x01]) 0x100).toOption = some 0x00F0 ∧
    (observe (meter3 4 (-8)) 0x093).toOption = some 0x0004 ∧
    (observe (meter3 4 (-8)) 0x09B).toOption = some 0xFFF8 := by decide

/-- E6. -/
theorem test_observe_refuses : [0x070, 0x083, 0x0A0, 0x1FF, 0x200].map
    (fun x => (observe State.reset x).toOption) = [none, none, none, none, none] := by decide

/-- An invalid configuration is refused (I8). -/
theorem test_invalid_configuration : exec .clrDirty badConfig = .refused .invalidConfiguration := by rfl

/-- So is a read of the observation port there, and an idle step (log entry 19). -/
theorem test_invalid_configuration_is_not_read : (observe badConfig 0x080).toOption = none ∧
    step badConfig = .refused .invalidConfiguration := ⟨by decide, by rfl⟩

/-! ### Other register widths (R6, R7): by hand -/

theorem test_widths_are_validated : wide.valid = true ∧ ({ wide with lenWidth := 8 } : Params).valid = false ∧
    ({ wide with decayWidth := 8 } : Params).valid = false := by decide

/-- LEN passes 255 and stops at CAP = 300. -/
theorem test_wide_len : (after (.sxCont 1 2 3) (wideState 297)).len = 300 ∧
    (outAfter (.sxCont 1 2 3) (wideState 300)).cond = .framingOverflow := by decide

/-- A DECAY of 9 bits reaches -144 and is sign-extended to the port's 16 bits. -/
theorem test_wide_decay : (after (.render 3) (wideState 3)).decayOf 3 = -144 ∧
    (observe (after (.render 3) (wideState 3)) 0x09B).toOption = some 0xFF70 := by decide

/-- `SYSEX` of R75 on a message of 7 bytes: two SXC packets and one SXE1. -/
theorem test_sysex_packets : Asm.sysex [1, 2, 3, 4, 5, 6, 7] =
    [Asm.sxc 1 2 3, Asm.sxc 4 5 6, Asm.sxe1 7] := by decide

/-! ### Witnesses: for each obligation with hypotheses, a state and operands that meet them -/

/-- LEN three below CAP, Accumulating. -/
def nearlyFull : State := { State.reset with framing := .accumulating, len := 252 }

/-- A state with a message of 3 bytes under way, a falling meter, and one word waiting. -/
def busy (w : TransWord) : State :=
  { (accumulating [0xF0, 0x00, 0x01]) with level := (meter3 4 (-8)).level, decay := (meter3 4 (-8)).decay,
                                            pending := [w] }

theorem witness_DontCareBitsNeverMatter : (0x1FFFFFFFB : TransWord) &&& careMask (decode 0x100000003) =
    0x100000003 &&& careMask (decode 0x100000003) := by decide

theorem witness_StepRunsTheDecodedTransaction :
    (State.reset.withFetchWord 40 0x04F00001).pending = [0x004F00001] ∧ State.reset.pending = [] ∧
    State.reset.Ready := by decide

theorem witness_EveryTransactionIsDone : WellFormed (.render 3) = true ∧ State.reset.Ready := by decide

theorem witness_ReservedTransactionsAreRefused :
    (State.reset.withFetchWord 40 0x400000000).pending = [0x400000000] ∧ 4 ≤ (opselField 0x400000000).toNat := by decide

theorem witness_StepRefusesExactlyWhereTheSpecDoes : (opselField 0x400000000).toNat = 4 ∧
    (opselField 0x3FFFFFFFF).toNat = 3 ∧ badConfig.cfg.valid = false ∧
    (State.reset.setFraming .ended).framing = .ended := by decide

theorem witness_NothingRunsOutsideTheSpec : ¬ badConfig.Ready ∧ ¬ (State.reset.setFraming .unused3).Ready := by decide

theorem witness_ConditionsAreNeverFatal : ∃ t o, exec (.sxEnd1 0x41) State.reset = .next t ∧ t.out = some o ∧
    1 ≤ o.cond.code.toNat ∧ o.cond.code.toNat ≤ 5 := ⟨_, _, rfl, rfl, by decide, by decide⟩

theorem witness_IgnoredFeedsChangeNothing : opselField 0x00BB0107F = 0 ∧ cinField 0x00BB0107F = 0xB ∧
    Instr.ignF ∈ ignoredForms ∧ State.reset.Ready := by decide

theorem witness_ContinueAppendsThreeBytes_fits : nearlyFull.Ready ∧ nearlyFull.len + 3 = nearlyFull.cfg.cap ∧
    nearlyFull.framing ≠ .idle := by decide

theorem witness_ContinueAppendsThreeBytes_overflows :
    ({ nearlyFull with len := 253 } : State).Ready ∧ ¬ 253 + 3 ≤ nearlyFull.cfg.cap := by decide

theorem witness_ContinueAppendsThreeBytes_inv : (accumulating [0xF0, 0x00, 0x01]).Ready ∧
    (accumulating [0xF0, 0x00, 0x01]).ReassemblerInv := by decide

theorem witness_TerminalFragmentCompletesTheMessage : terminalBytes (.sxEnd3 1 2 3) = some [1, 2, 3] ∧
    nearlyFull.Ready ∧ nearlyFull.len + [(1 : Byte), 2, 3].length ≤ nearlyFull.cfg.cap := by decide

theorem witness_TerminalFragmentInIdleIsItsOwnMessage : terminalBytes (.sxEnd3 1 2 3) = some [1, 2, 3] ∧
    (meter3 4 (-8)).Inv ∧ (meter3 4 (-8)).framing = .idle ∧ [(1 : Byte), 2, 3].length ≤ (meter3 4 (-8)).cfg.cap := by decide

theorem witness_FramingOverflowDropsTheMessage :
    fragmentAppend (.sxEnd3 1 2 3) { nearlyFull with len := 253 } = some (253, 3) ∧
    ({ nearlyFull with len := 253 } : State).Ready ∧ nearlyFull.cfg.cap < 253 + 3 := by decide

theorem test_decode_sxc : decode (Asm.sxc 1#8 2#8 3#8) = .sxCont 1#8 2#8 3#8 := by decide
theorem test_decode_sxe1 : decode (Asm.sxe1 4#8) = .sxEnd1 4#8 := by decide
theorem test_decode_press : decode (Asm.press 52#8) = .pressure 52#8 := by decide
theorem test_decode_renderWord : decode (Asm.renderWord 3#3) = .render 3#3 := by decide
theorem test_decode_clrDirtyWord : decode Asm.clrDirtyWord = .clrDirty := by decide

theorem witness_InterleavedMessageIsReassembled : State.reset.Ready ∧ State.reset.framing = .idle ∧
    State.reset.len = 0 ∧
    ([Asm.sxc 1 2 3, Asm.press 0x34, Asm.renderWord 3] ++ [Asm.sxe1 4]).filter (fun w => isFragment (decode w)) =
      Asm.sysex [1, 2, 3, 4] ∧
    isFragment (decode (Asm.sxe1 4)) = true ∧
    (∀ w ∈ [Asm.sxc 1 2 3, Asm.press 0x34, Asm.renderWord 3], WellFormed (decode w) = true ∧ decode w ≠ .reset) :=
  ⟨by decide, rfl, rfl,
    by simp [test_decode_sxc, test_decode_sxe1, test_decode_press, test_decode_renderWord, isFragment, Asm.sysex],
    by simp [test_decode_sxe1, isFragment],
    by simp [test_decode_sxc, test_decode_press, test_decode_renderWord, WellFormed]⟩

theorem witness_OverlongMessageOverflowsAtTheCapacity : State.reset.Ready ∧ State.reset.framing = .idle ∧
    State.reset.len = 0 ∧ State.reset.cfg.cap < (List.replicate 256 (0x01 : Byte)).length := by
  refine ⟨by decide, by decide, by decide, ?_⟩
  rw [List.length_replicate]; decide

theorem witness_ForeignMessageLeavesTheText : (accumulating header6).Ready ∧
    ¬ IsDisplayMessage Params.reference (State.reset.message ++ [0x41]) ∧
    (accumulating header6).len + 1 ≤ (accumulating header6).cfg.cap := by decide

theorem witness_UnterminatedMessageLeavesTheText : (accumulating header6).Ready ∧
    IsDisplayMessage Params.reference ((accumulating header6).message ++ [0x00]) ∧
    (Params.reference.terminator ∉ ((accumulating header6).message ++ [0x00]).drop Params.reference.payloadIndex) := by
  decide

/-- B11's and B12's boundary, at offsets 111 and 112 with one payload byte. -/
theorem witness_DisplayMessageWritesItsPrefix : (accumulating header6).Ready ∧
    IsDisplayMessage Params.reference ((accumulating header6).message ++ [0x6F, 0x41, 0xF7]) ∧
    ((accumulating header6).message ++ [0x6F, 0x41, 0xF7]).drop 7 = [0x41] ++ Params.reference.terminator :: [] ∧
    ((accumulating header6).message ++ [0x6F, 0x41, 0xF7])[6]? = some 0x6F ∧
    ((accumulating header6).message ++ [0x70, 0x41, 0xF7])[6]? = some 0x70 ∧
    Params.reference.terminator ∉ [(0x41 : Byte)] := by decide

theorem witness_TextAndDirtyChangeOnlyThere :
    ∃ t o, exec (.sxEnd3 0x05 0xF7 0x00) (accumulating header6) = .next t ∧ t.out = some o ∧ o.cond = .applied :=
  ⟨_, _, rfl, rfl, by decide⟩

theorem witness_NothingBeyondTheTextBufferIsWritten :
    ∃ t, exec (.sxEnd1 0xF7) (accumulating edgeHead) = .next t ∧ (accumulating edgeHead).cfg.textSize ≤ 112 :=
  ⟨_, rfl, by decide⟩

theorem witness_PressureLoadsOneLevel : opselField 0xDD03400 = 0 ∧ cinField 0xDD03400 = 0xD ∧ State.reset.Ready ∧
    (3 : BitVec 3).toNat = (((0x34 : Byte) &&& 0x70) >>> 4).toNat ∧
    (4 : BitVec 3).toNat ≠ (((0x34 : Byte) &&& 0x70) >>> 4).toNat := by decide

theorem witness_RenderOfEmptyChannelShowsTheBorder : State.reset.Ready ∧ State.reset.levelOf 3 = 0 := by decide

/-- The extent 0 exactly (C6, base 32 with DECAY -32), a positive and a negative one. -/
theorem witness_RenderAdvancesTheMeter : (meter3 3 (-32)).Ready ∧ (meter3 3 (-32)).levelOf 3 ≠ 0 ∧
    (((3 * 128 / 12 : Nat) : Int) + ((meter3 3 (-32)).decayOf 3) = 0) ∧
    (((3 * 128 / 12 : Nat) : Int) + ((meter3 3 (-24)).decayOf 3) = 8) ∧
    (((3 * 128 / 12 : Nat) : Int) + ((meter3 3 (-40)).decayOf 3) = -8) ∧
    (-(2 ^ (16 - 1) : Int) ≤ (meter3 3 (-32)).decayOf 3 - 8) ∧ (meter3 3 (-32)).decayOf 3 - 8 < 2 ^ (16 - 1) ∧
    (wideState 3).Ready ∧ -(2 ^ (wide.decayWidth - 1) : Int) ≤ (wideState 3).decayOf 3 - 8 := by decide

theorem witness_HalfTheExtentIsLit : (128 : Nat) ≤ 128 := by decide

/-- Level 3: base 32; at k = 4 the extent is 0, at k = 5 the bar is exhausted. -/
theorem witness_MeterFallsLinearlyToEmpty : State.reset.Ready ∧
    (2 : BitVec 3).toNat = (((0x23 : Byte) &&& 0x70) >>> 4).toNat ∧
    3 = min ((0x23 : Byte) &&& 0x0F).toNat State.reset.cfg.levelMax ∧ 1 ≤ 3 ∧
    32 = 3 * State.reset.cfg.barWidth / State.reset.cfg.levelMax ∧
    4 * State.reset.cfg.decayStep ≤ 32 ∧ 32 < 5 * State.reset.cfg.decayStep := by decide

theorem witness_RendersOfTwoChannelsCommute : (3 : BitVec 3) ≠ 4 ∧ (meter3 4 (-8)).Ready := by decide

theorem witness_OnlyTheNamedChannelIsTouched : ∃ t, exec (.render 4) (meter3 4 (-8)) = .next t ∧
    Instr.render 4 ≠ .reset ∧ Instr.render 4 ≠ .render 3 := ⟨_, rfl, by decide, by decide⟩

theorem witness_RenderNeitherReadsNorWritesDirty : ∃ t, exec (.render 3) (meter3 4 (-8)) = .next t := ⟨_, rfl⟩

theorem witness_ClearDirtyClearsOnlyDirty : opselField 0x2FFFFFFFF = 2 ∧ (State.reset.setDirty true).Ready := by decide

theorem witness_ResetGivesEveryRegisterItsValue : (accumulating [0xF0, 0x00, 0x01]).Ready ∧
    (111 : Nat) < (accumulating [0xF0, 0x00, 0x01]).cfg.textSize ∧
    (Params.reference.textInit[111]?).isSome := by decide

theorem witness_ResetTransactionIsThePowerOnReset : (accumulating [0xF0, 0x00, 0x01]).Ready ∧
    (accumulating [0xF0, 0x00, 0x01]).cfg = Params.reference := ⟨by decide, rfl⟩

theorem witness_ConfigurationIsFixedForLife : ∃ t, step (busy 0x300000000) = .next t := ⟨_, rfl⟩

theorem witness_RenderPolicyIsNeverRead : ∃ t, exec (.render 3) (meter3 4 (-8)) = .next t := ⟨_, rfl⟩

theorem witness_EveryStepKeepsTheInvariant :
    (busy 0x100000003).Inv ∧ ∃ t, step (busy 0x100000003) = .next t := ⟨by decide, _, rfl⟩

theorem witness_RenderAgentNeverDisturbsIngress : (busy 0).Inv ∧
    PossibleRun [Asm.sxe1 4, Asm.press 0x34] [Asm.renderWord 3, Asm.clrDirtyWord] []
      [Asm.renderWord 3, Asm.sxe1 4, Asm.clrDirtyWord, Asm.press 0x34] :=
  ⟨by decide, by
    simp [PossibleRun, issuedWords, test_decode_sxe1, test_decode_press, test_decode_renderWord,
      test_decode_clrDirtyWord, issuedBy]⟩

theorem witness_SysExTrafficNeverDisturbsTheMeters : (busy 0).Ready ∧
    (∀ w ∈ [Asm.press 0x34, Asm.sxe1 4, Asm.renderWord 3], WellFormed (decode w) = true ∧ decode w ≠ .reset) :=
  ⟨by decide, by simp [test_decode_sxe1, test_decode_press, test_decode_renderWord, WellFormed]⟩

/-- The bounds of the windows of R47. -/
theorem witness_ObservationMapIsTheTable : State.reset.Ready ∧ State.reset.cfg.textSize = 112 ∧
    (wideState 300).Ready ∧ (wideState 300).len < 2 ^ 16 ∧ -(2 ^ 15 : Int) ≤ (wideState 300).decayOf 3 ∧
    (wideState 300).decayOf 3 < 2 ^ 15 ∧
    (0x1FE : BitVec 12).toNat < 0x100 + State.reset.cfg.cap ∧
    (0x06F : BitVec 12).toNat ≤ 0x06F ∧ (0x097 : BitVec 12).toNat = 0x090 + (7 : BitVec 3).toNat ∧
    (0x098 : BitVec 12).toNat = 0x098 + (0 : BitVec 3).toNat ∧ (0x1FE : BitVec 12).toNat ≤ 0x1FE ∧
    0x1FE < (0x1FF : BitVec 12).toNat := by decide

theorem witness_StaleBufferBytesAreFreeValues : (busy 0).Inv ∧ 2 < (busy 0).len ∧ (busy 0).len ≤ 3 := by
  decide

end Sys2Proof.Tests
end

/-! SUPPORT. Where a transaction and a step are refused (00_scope.md R7, R12): every well-formed form runs in the one
frame `transact`, a reserved OPSEL is refused by its own name, and a step does what the accepted form or `idle` does. -/

namespace Sys2Proof.Machine

/-! ### The two kinds of transaction form -/

/-- Every well-formed form is a body in the frame of R12 and R74. -/
theorem exec_eq_transact {i : Instr} (h : WellFormed i = true) : ∃ body, ∀ s, exec i s = transact s body := by
  cases i with
  | ign0 | ign1 | ign2 | ign3 | ign8 | ign9 | ignA | ignB | ignC | ignE | ignF => exact ⟨ignoredBody, fun _ => rfl⟩
  | sxCont b1 b2 b3 => exact ⟨sxContBody b1 b2 b3, fun _ => rfl⟩
  | sxEnd1 b1 => exact ⟨sxEndBody [b1], fun _ => rfl⟩
  | sxEnd2 b1 b2 => exact ⟨sxEndBody [b1, b2], fun _ => rfl⟩
  | sxEnd3 b1 b2 b3 => exact ⟨sxEndBody [b1, b2, b3], fun _ => rfl⟩
  | pressure b2 => exact ⟨pressureBody b2, fun _ => rfl⟩
  | render ch => exact ⟨renderBody ch, fun _ => rfl⟩
  | clrDirty => exact ⟨clrDirtyBody, fun _ => rfl⟩
  | reset => exact ⟨resetBody, fun _ => rfl⟩
  | rsv4 | rsv5 | rsv6 | rsv7 => simp [WellFormed] at h

/-- Every other form is reserved, and refused in every state (R142). -/
theorem exec_of_not_wellFormed {i : Instr} (h : WellFormed i = false) :
    ∃ opsel, ∀ s, exec i s = .refused (.reservedTransaction opsel) := by
  cases i with
  | rsv4 | rsv5 | rsv6 | rsv7 => exact ⟨_, fun _ => rfl⟩
  | _ => simp [WellFormed] at h

/-- A well-formed form is refused exactly where the block has no meaning, with the reason by name. -/
theorem exec_refused_iff {i : Instr} (h : WellFormed i = true) {s : State} {r : Refusal} :
    exec i s = .refused r ↔ s.refusal? = some r := by
  obtain ⟨body, hbody⟩ := exec_eq_transact h
  rw [hbody, transact_refused_iff]

/-! ### The two kinds of word (R61, R69) -/

/-- Every FEED word spells a transaction: all 16 values of CIN are defined (R63). -/
theorem decodeFeed_wellFormed (w : TransWord) : WellFormed (decodeFeed w) = true := by
  simp only [decodeFeed]
  split <;> rfl

/-- A word with OPSEL 0 to 3 spells a transaction. -/
theorem decode_wellFormed {w : TransWord} (h : (opselField w).toNat < 4) : WellFormed (decode w) = true := by
  obtain h0 | h1 | h2 | h3 : (opselField w).toNat = 0 ∨ (opselField w).toNat = 1 ∨ (opselField w).toNat = 2 ∨
      (opselField w).toNat = 3 := by omega
  · simp only [decode, h0, decodeFeed_wellFormed]
  · simp only [decode, h1, WellFormed]
  · simp only [decode, h2, WellFormed]
  · simp only [decode, h3, WellFormed]

/-- A word with OPSEL 4 to 7 is refused in every state, and the reason names its OPSEL (R69, R142). -/
theorem exec_decode_reserved {w : TransWord} (h : 4 ≤ (opselField w).toNat) (s : State) :
    exec (decode w) s = .refused (.reservedTransaction (opselField w)) := by
  obtain h4 | h5 | h6 | h7 : opselField w = 4 ∨ opselField w = 5 ∨ opselField w = 6 ∨ opselField w = 7 := by
    bv_omega
  · simp [decode, h4, exec, execRsv4]
  · simp [decode, h5, exec, execRsv5]
  · simp [decode, h6, exec, execRsv6]
  · simp [decode, h7, exec, execRsv7]

/-- The transaction that a word spells is refused exactly for a reserved OPSEL or, with any other OPSEL, where the block
has no meaning. -/
theorem exec_decode_refused_iff {w : TransWord} {s : State} {r : Refusal} : exec (decode w) s = .refused r ↔
    (4 ≤ (opselField w).toNat ∧ r = .reservedTransaction (opselField w)) ∨
    ((opselField w).toNat < 4 ∧ s.refusal? = some r) := by
  obtain hlt | hge := Nat.lt_or_ge (opselField w).toNat 4
  · simp [exec_refused_iff (decode_wellFormed hlt), hlt]
  · simp [exec_decode_reserved hge, hge, eq_comm (a := r)]

/-! ### The step (R11, R50) -/

/-- The state in which the transaction of an accepted word runs: the word no longer waits, and a new draw begins. -/
def State.accepted (rest : List TransWord) (s : State) : State := { s with pending := rest, draws := s.draws + 1 }

/-- Accepting a word leaves the reason for a refusal as it is. -/
@[simp] theorem State.accepted_refusal? (rest : List TransWord) (s : State) :
    (s.accepted rest).refusal? = s.refusal? := rfl

/-- With no word waiting a step is the idle step. -/
theorem step_of_pending_nil {s : State} (h : s.pending = []) : step s = idle s := by
  simp only [step, h]

/-- With words waiting a step runs the transaction of the first. -/
theorem step_of_pending_cons {s : State} {w : TransWord} {rest : List TransWord} (h : s.pending = w :: rest) :
    step s = exec (decode w) (s.accepted rest) := by
  simp only [step, h, State.accepted]

/-! ### States without a meaning (R7, I6, I8) -/

/-- STATE is neither Idle nor Accumulating exactly where it is Ended or 3 (R21). -/
theorem Framing.not_boundary_iff {f : Framing} :
    ¬ (f = .idle ∨ f = .accumulating) ↔ f = .ended ∨ f = .unused3 := by
  cases f <;> decide

/-- A state that is not ready has a reason for its refusal. -/
theorem State.exists_refusal_of_not_ready {s : State} (h : ¬ s.Ready) : ∃ r, s.refusal? = some r :=
  Option.ne_none_iff_exists'.1 (fun hnone => h (State.refusal?_eq_none_iff.1 hnone))

/-- A transaction is refused in every state that is not ready, whatever its form. -/
theorem exec_refused_of_not_ready {s : State} (h : ¬ s.Ready) (i : Instr) : ∃ r, exec i s = .refused r := by
  cases hi : WellFormed i with
  | true =>
    obtain ⟨r, hr⟩ := State.exists_refusal_of_not_ready h
    exact ⟨r, (exec_refused_iff hi).2 hr⟩
  | false =>
    obtain ⟨opsel, hexec⟩ := exec_of_not_wellFormed hi
    exact ⟨.reservedTransaction opsel, hexec s⟩

/-- A step is refused in every state that is not ready, whether a word waits or not. -/
theorem step_refused_of_not_ready {s : State} (h : ¬ s.Ready) : ∃ r, step s = .refused r := by
  cases hp : s.pending with
  | nil =>
    obtain ⟨r, hr⟩ := State.exists_refusal_of_not_ready h
    exact ⟨r, (step_of_pending_nil hp).trans (idle_refused_iff.2 hr)⟩
  | cons w rest =>
    rw [step_of_pending_cons hp]
    exact exec_refused_of_not_ready (s := s.accepted rest) h (decode w)

/-- An observation read is refused in every state that is not ready, at every address (log entry 19). -/
theorem observe_error_of_not_ready {s : State} (h : ¬ s.Ready) (x : BitVec 12) : ∃ r, observe s x = .error r := by
  obtain ⟨r, hr⟩ := State.exists_refusal_of_not_ready h
  exact ⟨r, by simp only [observe, hr]⟩

end Sys2Proof.Machine

namespace Sys2Proof.Proofs

open Sys2Proof.Machine

/-- Settles O10, by cases on whether a word waits: the first word's OPSEL decides between the reserved refusal and the
state's own, which is also that of the idle step. -/
theorem stepRefusesExactlyWhereTheSpecDoes : Obligations.StepRefusesExactlyWhereTheSpecDoes := by
  intro s r
  simp only [← Framing.not_boundary_iff, ← State.refusal?_eq_some_iff]
  cases hp : s.pending with
  | nil => simp [step_of_pending_nil hp, idle_refused_iff]
  | cons w rest => simp [step_of_pending_cons hp, exec_decode_refused_iff]

/-- Settles O11: transactions, steps and observation reads all ask `State.refusal?` first, or refuse in any state. -/
theorem nothingRunsOutsideTheSpec : Obligations.NothingRunsOutsideTheSpec :=
  fun _ h => ⟨exec_refused_of_not_ready h, step_refused_of_not_ready h, observe_error_of_not_ready h⟩

end Sys2Proof.Proofs

/-! SUPPORT. What each transaction does to the registers of 10_state.md: `Done` says once what every accepted form ran,
and one lemma per body says what it leaves of the display (TEXT, DIRTY) and of the meters (LEVEL, DECAY). -/

namespace Sys2Proof.Machine

/-! ### What a done transaction ran -/

/-- The transaction `i`, accepted in `s`, ran its body from a zero record and ended in `t`: one case per family of
forms. The reserved forms have no case (R142). -/
inductive Done (s t : State) : Instr → Prop where
  /-- One of the eleven ignored FEEDs (R88). -/
  | ignored {i : Instr} (hi : i ∈ ignoredForms) (ht : t = s.clearOut.raise .ignored) : Done s t i
  /-- A start or continue fragment (R82). -/
  | sxCont {b1 b2 b3 : Byte} (hbody : sxContBody b1 b2 b3 s.clearOut = .ok t) : Done s t (.sxCont b1 b2 b3)
  /-- A terminal fragment (R83 to R85). -/
  | sxEnd {i : Instr} {bs : List Byte} (hi : terminalBytes i = some bs) (hbody : sxEndBody bs s.clearOut = .ok t) :
      Done s t i
  /-- PRESSURE (R120). -/
  | pressure {b2 : Byte} (hbody : pressureBody b2 s.clearOut = .ok t) : Done s t (.pressure b2)
  /-- RENDER (R121). -/
  | render {ch : BitVec 3} (hbody : renderBody ch s.clearOut = .ok t) : Done s t (.render ch)
  /-- CLRDIRTY (R140). -/
  | clrDirty (ht : t = s.clearOut.setDirty false) : Done s t .clrDirty
  /-- RESET (R141). -/
  | reset (ht : t = s.clearOut.applyReset) : Done s t .reset

/-- A form whose meaning is a body in the frame of R12 goes on to what the body answers from a zero record. -/
theorem body_of_exec_next {i : Instr} {s t : State} {body : State → Except Fault State}
    (hmeaning : exec i s = transact s body) (h : exec i s = .next t) : body s.clearOut = .ok t :=
  (transact_next_iff.1 (hmeaning.symm.trans h)).2

/-- A transaction that goes on ran its body. -/
theorem done_of_exec_next {i : Instr} {s t : State} (h : exec i s = .next t) : Done s t i := by
  cases i with
  | ign0 | ign1 | ign2 | ign3 | ign8 | ign9 | ignA | ignB | ignC | ignE | ignF =>
    exact .ignored (by decide) (Except.ok.inj (body_of_exec_next (body := ignoredBody) rfl h)).symm
  | sxCont b1 b2 b3 => exact .sxCont (body_of_exec_next rfl h)
  | sxEnd1 b1 | sxEnd2 b1 b2 | sxEnd3 b1 b2 b3 => exact .sxEnd rfl (body_of_exec_next rfl h)
  | pressure b2 => exact .pressure (body_of_exec_next rfl h)
  | render ch => exact .render (body_of_exec_next rfl h)
  | clrDirty => exact .clrDirty (Except.ok.inj (body_of_exec_next (body := clrDirtyBody) rfl h)).symm
  | reset => exact .reset (Except.ok.inj (body_of_exec_next (body := resetBody) rfl h)).symm
  | rsv4 | rsv5 | rsv6 | rsv7 => cases h

/-- The record of a done transaction is the one driven last. -/
theorem State.outNow_of_out {s : State} {o : Out} (h : s.out = some o) : s.outNow = o := by
  simp [State.outNow, h]

/-! ### The fragment forms: display, meters and condition -/

/-- The two conditions of a message that was written to TEXT, in full or in part (R108, R150). -/
abbrev Cond.IsTextWrite (c : Cond) : Prop := c = .applied ∨ c = .regionOverflow

/-- Emptying the buffer at a start fragment changes neither the display nor a meter nor the record. -/
theorem State.freshStart_frame (s : State) :
    SameDisplay s s.freshStart ∧ SameMeters s s.freshStart ∧ s.freshStart.outNow = s.outNow := by
  simp only [State.freshStart]
  split <;> exact ⟨⟨rfl, rfl⟩, ⟨rfl, rfl⟩, rfl⟩

/-- SX_CONT changes neither the display nor a meter, and reports at most an overflow of the buffer (R82). -/
theorem sxContBody_frame {b1 b2 b3 : Byte} {s t : State} (h : sxContBody b1 b2 b3 s = .ok t) :
    SameDisplay s t ∧ SameMeters s t ∧ (t.outNow = s.outNow ∨ t.outNow.cond = .framingOverflow) := by
  obtain ⟨hdisplay, hmeters, hout⟩ := s.freshStart_frame
  obtain hfits | hover := le_or_gt (s.freshStart.len + 3) s.freshStart.cfg.cap
  · obtain rfl := Except.ok.inj ((sxContBody_of_fits hfits).symm.trans h)
    exact ⟨hdisplay, hmeters, .inl hout⟩
  · obtain rfl := Except.ok.inj ((sxContBody_of_overflow hover).symm.trans h)
    exact ⟨hdisplay, hmeters, .inr rfl⟩

/-- A body that decodes a message changes no meter, and either rejects and leaves the display, or writes to TEXT, sets
DIRTY and reports the write (R100, R108). -/
abbrev DecodesOrRejects (s t : State) : Prop :=
  SameMeters s t ∧
    ((SameDisplay s t ∧ ¬ t.outNow.cond.IsTextWrite) ∨ (t.dirty = true ∧ t.outNow.cond.IsTextWrite))

/-- `Decode` leaves the display where it rejects; where it writes it sets DIRTY and reports the write (R100). -/
theorem displayDecode_frame {m : List Byte} {s t : State} (h : displayDecode m s = .ok t) : DecodesOrRejects s t := by
  obtain ⟨-, hbody⟩ | ⟨-, -, hbody⟩ | ⟨p, -, -, hbody⟩ := displayDecode_cases m s <;>
    obtain rfl := Except.ok.inj (hbody.symm.trans h)
  · exact ⟨⟨rfl, rfl⟩, .inl ⟨⟨rfl, rfl⟩, by simp⟩⟩
  · exact ⟨⟨rfl, rfl⟩, .inl ⟨⟨rfl, rfl⟩, by simp⟩⟩
  · refine ⟨⟨rfl, rfl⟩, .inr ⟨rfl, ?_⟩⟩
    rw [State.setDirty_outNow, State.raise_outNow]
    split
    · exact .inr rfl
    · exact .inl rfl

/-- Completion does to display and meters what `Decode` does (R86). -/
theorem complete_frame {s t : State} (h : complete s = .ok t) : DecodesOrRejects s t := by
  obtain ⟨u, hdecode, hcomplete⟩ := complete_ok s
  obtain rfl := Except.ok.inj (hcomplete.symm.trans h)
  -- driving the message before and re-arming after touch neither display nor meters nor condition
  have hframe := displayDecode_frame hdecode
  exact hframe

/-- A terminal fragment decodes its message, or overflows and leaves display and meters (R83 to R85). -/
theorem sxEndBody_frame {bs : List Byte} {s t : State} (h : sxEndBody bs s = .ok t) : DecodesOrRejects s t := by
  obtain hfits | hover := le_or_gt (s.len + bs.length) s.cfg.cap
  · -- storing the fragment touches the reassembler's registers only
    have hframe := complete_frame ((sxEndBody_of_fits hfits).symm.trans h)
    exact hframe
  · obtain rfl := Except.ok.inj ((sxEndBody_of_overflow hover).symm.trans h)
    exact ⟨⟨rfl, rfl⟩, .inl ⟨⟨rfl, rfl⟩, by simp⟩⟩

/-- States with the same meters agree on every channel. -/
theorem State.channel_of_sameMeters {s t : State} (h : SameMeters s t) (c : BitVec 3) :
    t.levelOf c = s.levelOf c ∧ t.decayOf c = s.decayOf c := by
  obtain ⟨hlevel, hdecay⟩ := h
  exact ⟨State.levelOf_congr hlevel c, State.decayOf_congr hdecay c⟩

/-! ### The meter forms: display, condition and the other channels -/

/-- PRESSURE leaves the display and reports PEAK_UPDATED (R120). -/
theorem pressureBody_display {b2 : Byte} {s t : State} (h : pressureBody b2 s = .ok t) :
    SameDisplay s t ∧ t.outNow.cond = .peakUpdated := by
  obtain rfl := Except.ok.inj h
  exact ⟨⟨rfl, rfl⟩, rfl⟩

/-- CH_F is B2 under the mask 0x70, moved down by 4 (R66). -/
theorem channelOperand_toNat (b2 : Byte) : (channelOperand b2).toNat = ((b2 &&& 0x70) >>> 4).toNat := by
  have hbits : (b2 &&& 0x70) >>> 4 = (channelOperand b2).setWidth 8 := by
    apply BitVec.eq_of_getLsbD_eq
    intro i hi
    simp only [channelOperand, BitVec.getLsbD_ushiftRight, BitVec.getLsbD_and]
    interval_cases i <;> simp
  rw [hbits, BitVec.toNat_setWidth_of_le (by decide)]

/-- PRESSURE leaves every channel but the one that it names (R120). -/
theorem pressureBody_other {b2 : Byte} {s t : State} {c : BitVec 3} (h : pressureBody b2 s = .ok t)
    (hc : c ≠ channelOperand b2) : t.levelOf c = s.levelOf c ∧ t.decayOf c = s.decayOf c := by
  obtain rfl := Except.ok.inj h
  constructor
  · exact (s.levelOf_setLevel _ c _).trans (if_neg hc)
  · exact (State.decayOf_setDecay _ _ c _).trans (if_neg hc)

/-- An exhausted bar writes no register but its channel's level (R126). -/
theorem State.exhaust_frame (ch : BitVec 3) (e : Int) (s : State) :
    SameDisplay s (s.exhaust ch e) ∧ (s.exhaust ch e).decay = s.decay ∧ (s.exhaust ch e).outNow = s.outNow ∧
      ∀ c ≠ ch, (s.exhaust ch e).levelOf c = s.levelOf c := by
  simp only [State.exhaust]
  split
  · exact ⟨⟨rfl, rfl⟩, rfl, rfl, fun c hc => (s.levelOf_setLevel _ c _).trans (if_neg hc)⟩
  · exact ⟨⟨rfl, rfl⟩, rfl, rfl, fun _ _ => rfl⟩

/-- RENDER leaves the display, the condition code and every channel but its own (R121, R131). -/
theorem renderBody_frame {ch : BitVec 3} {s t : State} (h : renderBody ch s = .ok t) :
    SameDisplay s t ∧ t.outNow.cond = s.outNow.cond ∧
      ∀ c ≠ ch, t.levelOf c = s.levelOf c ∧ t.decayOf c = s.decayOf c := by
  by_cases hlevel : s.levelOf ch = 0
  · obtain rfl := Except.ok.inj ((renderBody_of_empty hlevel).symm.trans h)
    exact ⟨⟨rfl, rfl⟩, rfl, fun c _ => ⟨rfl, rfl⟩⟩
  · obtain rfl := Except.ok.inj ((renderBody_of_lit hlevel).symm.trans h)
    obtain ⟨hdisplay, hdecay, hout, hother⟩ := State.exhaust_frame ch
      (extent s.cfg (clampLevel s.cfg (s.levelOf ch)) (s.decayOf ch))
      ((s.setLevel ch (clampLevel s.cfg (s.levelOf ch))).setDecay ch (decayedOnce s.cfg (s.decayOf ch)))
    refine ⟨hdisplay, by simp [hout], fun c hc => ⟨?_, ?_⟩⟩
    · exact (hother c hc).trans ((s.levelOf_setLevel _ c _).trans (if_neg hc))
    · exact (State.decayOf_congr hdecay c).trans ((State.decayOf_setDecay _ _ c _).trans (if_neg hc))

/-! ### What any transaction does to the display (R25, R30, R108) -/

/-- A done transaction leaves the display and reports no write to TEXT; or it is CLRDIRTY or RESET, which report none
either; or it is a terminal fragment that reports a write and leaves DIRTY set. -/
theorem Done.display_cases {i : Instr} {s t : State} (h : Done s t i) :
    (SameDisplay s t ∧ ¬ t.outNow.cond.IsTextWrite) ∨
    (i = .clrDirty ∧ t.text = s.text ∧ ¬ t.outNow.cond.IsTextWrite) ∨
    (i = .reset ∧ ¬ t.outNow.cond.IsTextWrite) ∨
    ((terminalBytes i).isSome ∧ t.dirty = true ∧ t.outNow.cond.IsTextWrite) := by
  cases h with
  | ignored hi ht => subst ht; exact .inl ⟨⟨rfl, rfl⟩, by simp⟩
  | sxCont hbody =>
    obtain ⟨hdisplay, -, hout⟩ := sxContBody_frame hbody
    refine .inl ⟨hdisplay, ?_⟩
    obtain hout | hout := hout <;> simp [hout, Out.zero]
  | sxEnd hi hbody =>
    obtain ⟨-, hrejects | ⟨hdirty, hwrite⟩⟩ := sxEndBody_frame hbody
    · exact .inl hrejects
    · exact .inr (.inr (.inr ⟨by simp [hi], hdirty, hwrite⟩))
  | pressure hbody =>
    obtain ⟨hdisplay, hcond⟩ := pressureBody_display hbody
    exact .inl ⟨hdisplay, by simp [hcond]⟩
  | render hbody =>
    obtain ⟨hdisplay, hcond, -⟩ := renderBody_frame hbody
    exact .inl ⟨hdisplay, by simp [hcond, Out.zero]⟩
  | clrDirty ht => subst ht; simp [Out.zero]
  | reset ht => subst ht; simp [Out.zero]

/-! ### What is listed of BUF (R23) -/

/-- A read finds a stored byte exactly at a listed address. -/
theorem Memory.isSome_read?_iff (m : Memory) (a : Nat) : (m.read? a).isSome ↔ a ∈ m.map Prod.fst := by
  induction m with
  | nil => simp [Memory.read?]
  | cons c m ih =>
    obtain ⟨x, v⟩ := c
    by_cases h : a = x
    · simp [Memory.read?, h]
    · simpa [Memory.read?, h] using ih

/-- A memory that lists exactly the addresses below `n` stores a byte exactly at those. -/
theorem Memory.ListsBelow.isSome_read?_iff {m : Memory} {n : Nat} (h : m.ListsBelow n) (a : Nat) :
    (m.read? a).isSome ↔ a < n := by
  rw [Memory.isSome_read?_iff, h, List.mem_range]

/-! ### Codes and indices (R150, R26) -/

/-- The conditions in the order of the table (R150). -/
def Cond.table : List Cond :=
  [.ok, .applied, .regionOverflow, .malformedPredicate, .malformedNoTerminator, .framingOverflow, .peakUpdated, .ignored]

/-- The table lists every condition. -/
theorem Cond.mem_table (c : Cond) : c ∈ Cond.table := by
  cases c <;> decide

/-- The codes of the table are pairwise different. -/
theorem Cond.codes_nodup : (Cond.table.map Cond.code).Nodup := by decide

/-- With the default parameters a row is 56 cells and a strip is 7 (R26). -/
theorem textIndex_reference (r p c : Nat) : textIndex Params.reference r p c = r * 56 + p * 7 + c := rfl

end Sys2Proof.Machine

namespace Sys2Proof.Proofs

open Sys2Proof.Machine

/-- Settles O15: the codes are those of the tables by evaluation, and the table of the conditions lists each of them
under a code of its own. -/
theorem stateAndConditionCodesAreTheTables : Obligations.StateAndConditionCodesAreTheTables :=
  ⟨rfl, rfl, fun c d => List.inj_on_of_nodup_map Cond.codes_nodup c.mem_table d.mem_table⟩

/-- Settles O28: a number below 112 has one reading as row, strip and position, since 8 × 7 = 56. -/
theorem textIndexIsOneToOne : Obligations.TextIndexIsOneToOne := by
  intro r p c r' p' c' hr hp hc hr' hp' hc'
  simp only [textIndex_reference]
  refine ⟨?_, ?_, trivial, ?_⟩ <;> omega

/-- Settles O26, from the ways in which a transaction can end as far as the display is concerned. -/
theorem textAndDirtyChangeOnlyThere : Obligations.TextAndDirtyChangeOnlyThere := by
  intro i s t o hexec hout
  obtain ⟨⟨htext, hdirty⟩, hquiet⟩ | ⟨hi, htext, hquiet⟩ | ⟨hi, hquiet⟩ | ⟨hterminal, hdirty, hwrite⟩ :=
    (State.outNow_of_out hout) ▸ (done_of_exec_next hexec).display_cases
  · exact ⟨.inl htext, .inl hdirty, fun hwrite => absurd hwrite hquiet⟩
  · exact ⟨.inl htext, .inr (.inr (.inl hi)), fun hwrite => absurd hwrite hquiet⟩
  · exact ⟨.inr (.inl hi), .inr (.inl hi), fun hwrite => absurd hwrite hquiet⟩
  · exact ⟨.inr (.inr hwrite), .inr (.inr (.inr hwrite)), fun _ => ⟨hterminal, hdirty⟩⟩

/-- Settles O35, by cases on what the transaction ran: only PRESSURE and RENDER write a meter at all, and each writes
that of its own channel. -/
theorem onlyTheNamedChannelIsTouched : Obligations.OnlyTheNamedChannelIsTouched := by
  intro i s t c hexec hreset hrender hpressure
  cases done_of_exec_next hexec with
  | ignored _ ht => exact State.channel_of_sameMeters (ht ▸ ⟨rfl, rfl⟩) c
  | sxCont hbody =>
    obtain ⟨-, hmeters, -⟩ := sxContBody_frame hbody
    exact State.channel_of_sameMeters hmeters c
  | sxEnd _ hbody =>
    obtain ⟨hmeters, -⟩ := sxEndBody_frame hbody
    exact State.channel_of_sameMeters hmeters c
  | pressure hbody =>
    refine pressureBody_other (s := s.clearOut) hbody fun hc => hpressure _ rfl ?_
    rw [hc, channelOperand_toNat]
  | render hbody =>
    obtain ⟨-, -, hother⟩ := renderBody_frame hbody
    exact hother c fun hc => hrender (congrArg Instr.render hc.symm)
  | clrDirty ht => exact State.channel_of_sameMeters (ht ▸ ⟨rfl, rfl⟩) c
  | reset => exact absurd rfl hreset

/-- Settles O47: BUF lists exactly the addresses below LEN, and an unlisted address reads as the free value. -/
theorem staleBufferBytesAreFreeValues : Obligations.StaleBufferBytesAreFreeValues := by
  intro s k ⟨_, ⟨_, _, _, hlists⟩, _, _⟩
  have hlisted : (s.buf.read? k).isSome ↔ k < s.len := Memory.ListsBelow.isSome_read?_iff hlists k
  constructor
  · intro hk
    obtain ⟨b, hb⟩ := Option.isSome_iff_exists.1 (hlisted.2 hk)
    exact ⟨b, hb, by simp [State.bufByte, Memory.read, hb]⟩
  · intro hk
    have hnone : s.buf.read? k = none := Option.not_isSome_iff_eq_none.1 (fun h => by have := hlisted.1 h; omega)
    simp [State.bufByte, Memory.read, hnone]

end Sys2Proof.Proofs

/-! SUPPORT. The two windows on memory: what a terminal fragment's completed message writes to TEXT (20_memory.md R43,
41_display_decoder.md R103 to R108), and what each window of the observation port reads (R47). -/

namespace Sys2Proof.Machine

/-! ### The completed message of a terminal fragment (R42, R83 to R86) -/

/-- Forgetting the bytes at and above `n` does not change the `n` bytes below. -/
theorem Memory.readList_truncate (m : Memory) (d n : Nat) : (m.truncate n).readList d 0 n = m.readList d 0 n := by
  refine List.map_congr_left fun k hk => ?_
  have hlt : 0 + k < n := by simpa using hk
  simp only [Memory.read, Memory.read?_truncate, if_pos hlt]

/-- The state in which a terminal fragment that fits completes: its bytes stored, LEN counting them, STATE Ended. -/
def State.terminated (bs : List Byte) (s : State) : State :=
  ((s.setBuf (s.buf.writeList s.len bs)).setLen (s.len + bs.length)).setFraming .ended

/-- The completed message is everything accumulated followed by the fragment's bytes. -/
theorem State.terminated_message {bs : List Byte} {s : State} (hvalid : s.cfg.valid = true)
    (hfits : s.len + bs.length ≤ s.cfg.cap) : (s.terminated bs).message = s.message ++ bs := by
  have hlen : (s.terminated bs).len = s.len + bs.length := Params.toLen_of_le hvalid hfits
  calc (s.terminated bs).message
      = ((s.buf.writeList s.len bs).truncate (s.len + bs.length)).readList s.draws 0 (s.len + bs.length) := by
        rw [State.message, hlen]; rfl
    _ = s.message ++ bs := by rw [Memory.readList_truncate, Memory.readList_append]; rfl

/-- The meaning of a terminal form is SX_END of its bytes in the frame of every transaction. -/
theorem exec_of_terminalBytes {i : Instr} {bs : List Byte} (h : terminalBytes i = some bs) (s : State) :
    exec i s = transact s (sxEndBody bs) := by
  cases i with
  | sxEnd1 | sxEnd2 | sxEnd3 => obtain rfl := Option.some.inj h; rfl
  | _ => simp [terminalBytes] at h

/-- A terminal fragment that fits decodes the completed message, already driven on the record, and re-arms to Idle with
an empty buffer (R86). -/
theorem exec_terminal_of_fits {i : Instr} {bs : List Byte} {s : State} (hi : terminalBytes i = some bs)
    (hready : s.Ready) (hfits : s.len + bs.length ≤ s.cfg.cap) :
    ∃ u, displayDecode (s.message ++ bs) ((s.clearOut.terminated bs).driveMessage (s.message ++ bs)) = .ok u ∧
      exec i s = .next ((u.setLen 0).setFraming .idle) := by
  have hmessage : (s.clearOut.terminated bs).message = s.message ++ bs :=
    State.terminated_message (s := s.clearOut) hready.1 hfits
  obtain ⟨u, hdecode, hcomplete⟩ := complete_ok (s.clearOut.terminated bs)
  refine ⟨u, hmessage ▸ hdecode, ?_⟩
  rw [exec_of_terminalBytes hi]
  exact transact_of_ok hready ((sxEndBody_of_fits (s := s.clearOut) hfits).trans hcomplete)

/-! ### A display message with a terminated payload (R101 to R108) -/

/-- The validity predicate is what R101 asks. -/
theorem displayPredicate_iff {c : Params} {m : List Byte} : displayPredicate c m = true ↔ IsDisplayMessage c m := by
  simp [displayPredicate, IsDisplayMessage, and_assoc]

/-- The offset is the byte at OFFSET_INDEX, unmasked (R103). -/
theorem messageOffset_of_getElem? {c : Params} {m : List Byte} {ob : Byte} (h : m[c.offsetIndex]? = some ob) :
    messageOffset c m = ob.toNat := by
  simp [messageOffset, List.getD_eq_getElem?_getD, h]

/-- The payload ends at the first terminator (R104). -/
theorem payloadLength?_of_drop {c : Params} {m pay tail : List Byte}
    (hdrop : m.drop c.payloadIndex = pay ++ c.terminator :: tail) (hpay : c.terminator ∉ pay) :
    payloadLength? c m = some pay.length := by
  have hnone : pay.findIdx? (fun b => b == c.terminator) = none := by
    rw [List.findIdx?_eq_none_iff]
    intro b hb
    exact beq_eq_false_iff_ne.2 fun heq => hpay (heq ▸ hb)
  simp [payloadLength?, hdrop, List.findIdx?_append, hnone, List.findIdx?_cons]

/-- No more bytes are written than the payload has (R106). -/
theorem writtenCount_le (c : Params) (off p : Nat) : writtenCount c off p ≤ p := Nat.min_le_left _ _

/-- The effect of a decoded display message: the bytes of its payload that fit stored at the offset, the count and the
condition on the record, DIRTY set (R105 to R108). -/
def State.displayed (off : Nat) (pay : List Byte) (s : State) : State :=
  (((s.setText (s.text.writeList off (pay.take (writtenCount s.cfg off pay.length)))).driveWritten
      (writtenCount s.cfg off pay.length)).raise
    (if s.cfg.textSize < off + pay.length then .regionOverflow else .applied)).setDirty true

/-- `Decode` of a display message displays its payload at its offset (R100). -/
theorem displayDecode_of_payload {m pay tail : List Byte} {ob : Byte} {s : State} (hm : IsDisplayMessage s.cfg m)
    (hdrop : m.drop s.cfg.payloadIndex = pay ++ s.cfg.terminator :: tail) (hpay : s.cfg.terminator ∉ pay)
    (hob : m[s.cfg.offsetIndex]? = some ob) : displayDecode m s = .ok (s.displayed ob.toNat pay) := by
  have hpredicate := displayPredicate_iff.2 hm
  have hlength := payloadLength?_of_drop hdrop hpay
  have hprefix : ∀ off, (m.drop s.cfg.payloadIndex).take (writtenCount s.cfg off pay.length) =
      pay.take (writtenCount s.cfg off pay.length) := fun off => by
    rw [hdrop, List.take_append_of_le_length (writtenCount_le _ _ _)]
  obtain ⟨hfails, -⟩ | ⟨-, hnone, -⟩ | ⟨p, -, hp, hdecode⟩ := displayDecode_cases m s
  · simp [hpredicate] at hfails
  · simp [hlength] at hnone
  · obtain rfl : pay.length = p := Option.some.inj (hlength.symm.trans hp)
    rw [hdecode, messageOffset_of_getElem? hob, hprefix]
    rfl

/-- TEXT holds the written bytes of the payload from the offset upward, and every other cell reads as before (R43). -/
theorem State.displayed_read? (off : Nat) (pay : List Byte) (s : State) (a : Nat) :
    (s.displayed off pay).text.read? a =
      if off ≤ a ∧ a < off + writtenCount s.cfg off pay.length then pay[a - off]? else s.text.read? a := by
  have hlength : (pay.take (writtenCount s.cfg off pay.length)).length = writtenCount s.cfg off pay.length := by
    rw [List.length_take, Nat.min_eq_left (writtenCount_le _ _ _)]
  change (s.text.writeList off _).read? a = _
  rw [Memory.read?_writeList, hlength]
  split
  · rw [List.getElem?_take_of_lt (by omega)]
  · rfl

/-! ### The windows of the observation port (R47) -/

/-- In a ready state the port answers from the map. -/
theorem observe_of_ready {s : State} (h : s.Ready) (x : BitVec 12) : observe s x = observationMap s x := by
  simp only [observe, State.refusal?_eq_none_iff.2 h]

/-- A channel's address gives the channel back. -/
theorem channelAt_eq {base a : Nat} {c : BitVec 3} (h : a = base + c.toNat) : channelAt base a = c := by
  simp [channelAt, h]

section Windows

variable {s : State} {x : BitVec 12}

/-- The cells of TEXT. -/
theorem observationMap_text (h : x.toNat < 0x70) (hsize : x.toNat < s.cfg.textSize) :
    observationMap s x = .ok ((s.textByte x.toNat).setWidth 16) := if_pos ⟨h, hsize⟩

/-- STATE. -/
theorem observationMap_framing (h : x.toNat = 0x080) : observationMap s x = .ok (s.framing.code.setWidth 16) := by
  simp [observationMap, h]

/-- LEN. -/
theorem observationMap_len (h : x.toNat = 0x081) : observationMap s x = .ok (BitVec.ofNat 16 s.len) := by
  simp [observationMap, h]

/-- DIRTY. -/
theorem observationMap_dirty (h : x.toNat = 0x082) :
    observationMap s x = .ok ((BitVec.ofBool s.dirty).setWidth 16) := by
  simp [observationMap, h]

/-- The LEVEL registers. -/
theorem observationMap_level {c : BitVec 3} (h : x.toNat = 0x090 + c.toNat) :
    observationMap s x = .ok ((s.levelOf c).setWidth 16) := by
  have hc := c.isLt
  simp only [observationMap]
  rw [if_neg (by omega), if_neg (by omega), if_neg (by omega), if_neg (by omega), if_pos (by omega), channelAt_eq h]

/-- The DECAY registers. -/
theorem observationMap_decay {c : BitVec 3} (h : x.toNat = 0x098 + c.toNat) :
    observationMap s x = .ok (BitVec.ofInt 16 (s.decayOf c)) := by
  have hc := c.isLt
  simp only [observationMap]
  rw [if_neg (by omega), if_neg (by omega), if_neg (by omega), if_neg (by omega), if_neg (by omega),
    if_pos (by omega), channelAt_eq h]

/-- The bytes of BUF below CAP. -/
theorem observationMap_buf (hlo : 0x100 ≤ x.toNat) (hhi : x.toNat ≤ 0x1FE) (hcap : x.toNat < 0x100 + s.cfg.cap) :
    observationMap s x = .ok ((s.bufByte (x.toNat - 0x100)).setWidth 16) := by
  simp only [observationMap]
  rw [if_neg (by omega), if_neg (by omega), if_neg (by omega), if_neg (by omega), if_neg (by omega),
    if_neg (by omega), if_pos (by omega)]

/-- An address in the gaps between the windows, above the last one, or at or above CAP in that of BUF. -/
abbrev Unmapped (cap a : Nat) : Prop :=
  (0x06F < a ∧ a < 0x080) ∨ (0x082 < a ∧ a < 0x090) ∨ (0x09F < a ∧ a < 0x100) ∨ 0x1FE < a ∨ 0x100 + cap ≤ a

/-- Every other address is refused by name (I9). -/
theorem observationMap_unmapped (h : Unmapped s.cfg.cap x.toNat) :
    observationMap s x = .error (.unmappedObservation x) := by
  simp only [observationMap]
  rw [if_neg (by omega), if_neg (by omega), if_neg (by omega), if_neg (by omega), if_neg (by omega),
    if_neg (by omega), if_neg (by omega)]

end Windows

end Sys2Proof.Machine

namespace Sys2Proof.Proofs

open Sys2Proof.Machine

/-- Settles O25: the transaction decodes the completed message, and `Decode` displays the payload; storing the fragment
before and re-arming after leave TEXT, DIRTY and the meters. -/
theorem displayMessageWritesItsPrefix : Obligations.DisplayMessageWritesItsPrefix := by
  intro i bs pay tail ob s hi hready hfits hm hdrop hpay hob
  obtain ⟨u, hdecode, hexec⟩ := exec_terminal_of_fits hi hready hfits
  have hdisplay := displayDecode_of_payload (s := (s.clearOut.terminated bs).driveMessage (s.message ++ bs))
    hm hdrop hpay hob
  obtain rfl := Except.ok.inj (hdisplay.symm.trans hdecode)
  obtain ⟨hvalid, -⟩ := hready
  exact ⟨_, _, hexec, rfl, rfl, ⟨hvalid, .inl rfl⟩, rfl, Params.toLen_zero _, ⟨rfl, rfl⟩, ⟨rfl, rfl, rfl⟩,
    State.displayed_read? ob.toNat pay _, rfl, rfl⟩

/-- Settles O46, window by window; LEN and DECAY survive the port's 16 bits because they fit. -/
theorem observationMapIsTheTable : Obligations.ObservationMapIsTheTable := by
  intro s x hready hsize
  rw [observe_of_ready hready]
  refine ⟨fun h => observationMap_text (by omega) (by omega), ?framing, ?len, ?dirty, fun _ => observationMap_level,
    ?decay, observationMap_buf, observationMap_unmapped⟩
  case framing =>
    rintro rfl
    exact observationMap_framing rfl
  case len =>
    rintro rfl hfits
    exact ⟨_, observationMap_len rfl, (BitVec.toNat_ofNat _ _).trans (Nat.mod_eq_of_lt hfits)⟩
  case dirty =>
    rintro rfl
    rw [observationMap_dirty rfl]
    cases s.dirty <;> rfl
  case decay =>
    intro c h hlo hhi
    exact ⟨_, observationMap_decay h, BitVec.toInt_ofInt_eq_self (by decide) hlo hhi⟩

end Sys2Proof.Proofs

/-! SUPPORT. The fields of a FEED word (30_encoding.md R60 to R66): what each field of an assembled packet is, what the
decoder reads of a FEED, and what PRESSURE does to the meters from its two operand fields. -/

namespace Sys2Proof

/-! ### The fields of an assembled packet (R62) -/

section Fields

variable (b0 b1 b2 b3 : Byte)

/-- An assembled packet is a FEED. -/
@[simp] theorem opselField_feedWord : opselField (feedWord b0 b1 b2 b3) = 0 :=
  BitVec.extractLsb'_append_eq_left

/-- A field that lies within DATA is a field of the packet's four bytes. -/
theorem extractLsb'_feedWord {start len : Nat} (h : start + len ≤ 32) :
    (feedWord b0 b1 b2 b3).extractLsb' start len = (b0 ++ b1 ++ b2 ++ b3).extractLsb' start len :=
  BitVec.extractLsb'_append_eq_of_add_le h

/-- CIN is the low nibble of byte0. -/
@[simp] theorem cinField_feedWord : cinField (feedWord b0 b1 b2 b3) = b0.extractLsb' 0 4 := by
  rw [cinField, extractLsb'_feedWord _ _ _ _ (by decide), BitVec.extractLsb'_append_eq_of_le (by decide),
    BitVec.extractLsb'_append_eq_of_le (by decide), BitVec.extractLsb'_append_eq_of_le (by decide)]

/-- B1 is byte1. -/
@[simp] theorem b1Field_feedWord : b1Field (feedWord b0 b1 b2 b3) = b1 := by
  rw [b1Field, extractLsb'_feedWord _ _ _ _ (by decide), BitVec.extractLsb'_append_eq_of_le (by decide),
    BitVec.extractLsb'_append_eq_of_le (by decide), BitVec.extractLsb'_append_eq_right]

/-- B2 is byte2. -/
@[simp] theorem b2Field_feedWord : b2Field (feedWord b0 b1 b2 b3) = b2 := by
  rw [b2Field, extractLsb'_feedWord _ _ _ _ (by decide), BitVec.extractLsb'_append_eq_of_le (by decide),
    BitVec.extractLsb'_append_eq_right]

/-- B3 is byte3. -/
@[simp] theorem b3Field_feedWord : b3Field (feedWord b0 b1 b2 b3) = b3 := by
  rw [b3Field, extractLsb'_feedWord _ _ _ _ (by decide), BitVec.extractLsb'_append_eq_right]

end Fields

/-! ### What the decoder reads of a FEED (R61, R63) -/

/-- OPSEL 0 is a FEED (R61). -/
theorem decode_of_opsel_zero {w : TransWord} (h : opselField w = 0) : decode w = decodeFeed w := by
  simp [decode, h]

/-- The decoder reads CIN and the three payload bytes of a FEED, and nothing else of it (R63, R64). -/
theorem decodeFeed_congr {w w' : TransWord} (hcin : cinField w = cinField w') (hb1 : b1Field w = b1Field w')
    (hb2 : b2Field w = b2Field w') (hb3 : b3Field w = b3Field w') : decodeFeed w = decodeFeed w' := by
  simp only [decodeFeed, hcin, hb1, hb2, hb3]

/-- Packets that differ only in the high nibble of byte0 spell the same transaction (R64). -/
theorem decode_feedWord_cable (c c' cin : BitVec 4) (b1 b2 b3 : Byte) :
    decode (feedWord (c ++ cin) b1 b2 b3) = decode (feedWord (c' ++ cin) b1 b2 b3) := by
  have hcin : ∀ d : BitVec 4, cinField (feedWord (d ++ cin) b1 b2 b3) = cin := fun d =>
    (cinField_feedWord (d ++ cin) b1 b2 b3).trans BitVec.extractLsb'_append_eq_right
  rw [decode_of_opsel_zero (opselField_feedWord _ _ _ _), decode_of_opsel_zero (opselField_feedWord _ _ _ _)]
  exact decodeFeed_congr ((hcin c).trans (hcin c').symm) (by simp) (by simp) (by simp)

/-- CIN 0xD is PRESSURE of B2 (R63, R65). -/
theorem decode_of_pressure {w : TransWord} (hopsel : opselField w = 0) (hcin : cinField w = 0xD) :
    decode w = .pressure (b2Field w) := by
  rw [decode_of_opsel_zero hopsel]
  simp [decodeFeed, hcin]

end Sys2Proof

namespace Sys2Proof.Machine

/-! ### The level and the channel of PRESSURE (R66, R120) -/

/-- LEVEL_F is B2 under the mask 0x0F (R66). -/
theorem levelOperand_toNat (b2 : Byte) : (levelOperand b2).toNat = (b2 &&& 0x0F).toNat := by
  rw [levelOperand, BitVec.extractLsb'_toNat, BitVec.toNat_and]
  exact (Nat.and_two_pow_sub_one_eq_mod b2.toNat 4).symm

/-- A channel is CH_F exactly where its number is B2 under the mask 0x70, moved down by 4 (R66). -/
theorem eq_channelOperand_iff {b2 : Byte} {c : BitVec 3} :
    c = channelOperand b2 ↔ c.toNat = ((b2 &&& 0x70) >>> 4).toNat := by
  rw [← channelOperand_toNat, BitVec.toNat_inj]

/-- PRESSURE writes no register but the meters of its channel (R120). -/
theorem pressureBody_frame {b2 : Byte} {s t : State} (h : pressureBody b2 s = .ok t) :
    SameReassembler s t ∧ SameDisplay s t ∧ SameHost s t := by
  obtain rfl := Except.ok.inj h
  exact ⟨⟨rfl, rfl, rfl⟩, ⟨rfl, rfl⟩, rfl, rfl, rfl⟩

/-- PRESSURE loads LEVEL_F, not clamped, into its channel and restarts its decay (R120). -/
theorem pressureBody_same {b2 : Byte} {s t : State} (h : pressureBody b2 s = .ok t) :
    t.levelOf (channelOperand b2) = levelOperand b2 ∧ t.decayOf (channelOperand b2) = 0 := by
  obtain rfl := Except.ok.inj h
  constructor
  · exact (s.levelOf_setLevel _ _ _).trans (if_pos rfl)
  · exact (State.decayOf_setDecay _ _ _ _).trans ((if_pos rfl).trans (Params.toDecay_zero _))

/-- In a ready state PRESSURE is done, and its record holds the report alone (R74, R120). -/
theorem exec_pressure_of_ready (b2 : Byte) {s : State} (h : s.Ready) :
    ∃ t, exec (.pressure b2) s = .next t ∧ pressureBody b2 s.clearOut = .ok t ∧
      t.out = some { Out.zero with cond := .peakUpdated } :=
  ⟨_, transact_of_ok (body := pressureBody b2) h rfl, rfl, rfl⟩

end Sys2Proof.Machine

namespace Sys2Proof.Proofs

open Sys2Proof.Machine

/-- Settles O4: a step accepts the packet and runs what it decodes to, and the decoder does not read CABLE. -/
theorem cableIdHasNoEffect : Obligations.CableIdHasNoEffect := by
  intro s rest c c' cin b1 b2 b3
  rw [step_of_pending_cons rfl, step_of_pending_cons rfl, decode_feedWord_cable c c']
  rfl

/-- Settles O29, by cases on whether a channel is the one that B2 names. -/
theorem pressureLoadsOneLevel : Obligations.PressureLoadsOneLevel := by
  refine ⟨fun _ => decode_of_pressure, fun b2 s hready => ?_⟩
  obtain ⟨t, hexec, hbody, hout⟩ := exec_pressure_of_ready b2 hready
  obtain ⟨hreassembler, hdisplay, hhost⟩ := pressureBody_frame hbody
  refine ⟨t, hexec, hout, hreassembler, hdisplay, hhost, fun c => ?_⟩
  simp only [ne_eq, ← eq_channelOperand_iff]
  constructor
  · rintro rfl
    obtain ⟨hlevel, hdecay⟩ := pressureBody_same hbody
    exact ⟨by rw [hlevel, levelOperand_toNat], hdecay⟩
  · intro hc
    exact pressureBody_other (s := s.clearOut) hbody hc

end Sys2Proof.Proofs

/-! SUPPORT. The two kinds of FEED that complete no message (40_reassembler.md R81, R87, R88): the ignored forms, and a
fragment whose append overflows the buffer. -/

namespace Sys2Proof.Machine

/-! ### The ignored forms (R88) -/

/-- The eleven CINs of R88 select ignored forms: the decoder reads nothing else of such a FEED (R63). -/
theorem decodeFeed_mem_ignoredForms {w : TransWord}
    (hcin : cinField w ∈ ([0, 1, 2, 3, 8, 9, 0xA, 0xB, 0xC, 0xE, 0xF] : List (BitVec 4))) :
    decodeFeed w ∈ ignoredForms := by
  simp only [List.mem_cons, List.not_mem_nil, or_false] at hcin
  obtain h | h | h | h | h | h | h | h | h | h | h := hcin <;> simp [decodeFeed, h, ignoredForms]

/-- All ignored forms have the one meaning IGNORED. -/
theorem exec_of_mem_ignoredForms {i : Instr} (hi : i ∈ ignoredForms) (s : State) :
    exec i s = transact s ignoredBody := by
  cases i with
  | ign0 | ign1 | ign2 | ign3 | ign8 | ign9 | ignA | ignB | ignC | ignE | ignF => rfl
  | _ => simp [ignoredForms] at hi

/-! ### A fragment that overflows (R81, R87) -/

/-- The effect of FramingOverflow: the buffer emptied, STATE Idle, the report raised (R81). -/
def State.overflowed (s : State) : State := ((s.setLen 0).setFraming .idle).raise .framingOverflow

/-- An overflow ends in the same state whether or not the fragment had emptied the buffer before. -/
theorem State.freshStart_overflowed (s : State) : s.freshStart.overflowed = s.overflowed := by
  simp only [State.freshStart]
  split
  · simp [State.overflowed, State.setLen, State.setFraming, State.raise, State.outNow]
  · rfl

/-- Emptying the buffer at a start fragment leaves the configuration. -/
@[simp] theorem State.freshStart_cfg (s : State) : s.freshStart.cfg = s.cfg := by
  simp only [State.freshStart]
  split <;> rfl

/-- In a ready state SX_CONT appends at 0 from Idle and at LEN from Accumulating; STATE is not Ended there (R82, I6). -/
theorem State.freshStart_len_of_ready {s : State} (h : s.Ready) :
    s.freshStart.len = if s.framing = .idle then 0 else s.len := by
  obtain ⟨-, hidle | haccumulating⟩ := h
  · simp [State.freshStart, hidle]
  · simp [State.freshStart, haccumulating]

/-- A terminal fragment that does not fit overflows. -/
theorem exec_terminal_of_overflow {i : Instr} {bs : List Byte} {s : State} (hi : terminalBytes i = some bs)
    (hready : s.Ready) (hover : s.cfg.cap < s.len + bs.length) : exec i s = .next s.clearOut.overflowed := by
  rw [exec_of_terminalBytes hi]
  exact transact_of_ok hready (sxEndBody_of_overflow (s := s.clearOut) hover)

/-- A start or continue fragment that does not fit overflows. -/
theorem exec_sxCont_of_overflow (b1 b2 b3 : Byte) {s : State} (hready : s.Ready)
    (hover : s.cfg.cap < (if s.framing = .idle then 0 else s.len) + 3) :
    exec (.sxCont b1 b2 b3) s = .next s.clearOut.overflowed := by
  have hover' : s.clearOut.freshStart.cfg.cap < s.clearOut.freshStart.len + 3 := by
    rwa [State.freshStart_cfg, State.freshStart_len_of_ready (s := s.clearOut) hready]
  have hbody : sxContBody b1 b2 b3 s.clearOut = .ok s.clearOut.freshStart.overflowed := sxContBody_of_overflow hover'
  rw [State.freshStart_overflowed] at hbody
  exact transact_of_ok hready hbody

/-- Every fragment form whose append would pass CAP has the effect of FramingOverflow. -/
theorem exec_fragment_of_overflow {i : Instr} {s : State} {n k : Nat} (hi : fragmentAppend i s = some (n, k))
    (hready : s.Ready) (hover : s.cfg.cap < n + k) : exec i s = .next s.clearOut.overflowed := by
  cases i with
  | sxCont b1 b2 b3 =>
    obtain ⟨rfl, rfl⟩ := Prod.mk.inj (Option.some.inj hi)
    exact exec_sxCont_of_overflow b1 b2 b3 hready hover
  | sxEnd1 | sxEnd2 | sxEnd3 =>
    obtain ⟨rfl, rfl⟩ := Prod.mk.inj (Option.some.inj hi)
    exact exec_terminal_of_overflow rfl hready hover
  | _ => simp [fragmentAppend] at hi

end Sys2Proof.Machine

namespace Sys2Proof.Proofs

open Sys2Proof.Machine

/-- Settles O20: whatever the fragment form, the transaction ends in the one state of FramingOverflow. -/
theorem framingOverflowDropsTheMessage : Obligations.FramingOverflowDropsTheMessage := by
  intro i s n k hi hready hover
  exact ⟨_, exec_fragment_of_overflow hi hready hover, rfl, Params.toLen_zero _, rfl, ⟨rfl, rfl⟩, ⟨rfl, rfl⟩,
    ⟨rfl, rfl, rfl⟩, hready.1, .inl rfl⟩

/-- Settles O16: the CIN alone selects an ignored form, and all of them only raise IGNORED. -/
theorem ignoredFeedsChangeNothing : Obligations.IgnoredFeedsChangeNothing := by
  refine ⟨fun w hopsel hcin => ?_, fun i hi s hready => ?_⟩
  · rw [decode_of_opsel_zero hopsel]
    exact decodeFeed_mem_ignoredForms hcin
  · rw [exec_of_mem_ignoredForms hi]
    exact transact_of_ok (body := ignoredBody) hready rfl

end Sys2Proof.Proofs

/-! SUPPORT. A completed message that is no display message (41_display_decoder.md R101): `Decode` reads the predicate
first and does nothing but report the rejection. -/

namespace Sys2Proof.Machine

/-- `Decode` of a message that fails the predicate raises MALFORMED_PREDICATE and writes nothing (R101). -/
theorem displayDecode_of_foreign {m : List Byte} {s : State} (hm : ¬ IsDisplayMessage s.cfg m) :
    displayDecode m s = .ok (s.raise .malformedPredicate) := by
  have hpredicate : ¬ displayPredicate s.cfg m = true := mt displayPredicate_iff.1 hm
  obtain ⟨-, hdecode⟩ | ⟨hholds, -⟩ | ⟨_, hholds, -⟩ := displayDecode_cases m s
  · exact hdecode
  · exact absurd hholds hpredicate
  · exact absurd hholds hpredicate

end Sys2Proof.Machine

namespace Sys2Proof.Proofs

open Sys2Proof.Machine

/-- Settles O23: the transaction decodes the completed message, and `Decode` only raises MALFORMED_PREDICATE; storing the
fragment before and re-arming after leave TEXT, DIRTY and the meters, and nothing drives WRITTEN. -/
theorem foreignMessageLeavesTheText : Obligations.ForeignMessageLeavesTheText := by
  intro i bs s hi hready hfits hm
  obtain ⟨u, hdecode, hexec⟩ := exec_terminal_of_fits hi hready hfits
  have hrejects := displayDecode_of_foreign (s := (s.clearOut.terminated bs).driveMessage (s.message ++ bs)) hm
  obtain rfl := Except.ok.inj (hrejects.symm.trans hdecode)
  exact ⟨_, _, hexec, rfl, Params.toLen_zero _, ⟨rfl, rfl⟩, ⟨rfl, rfl⟩, ⟨rfl, rfl, rfl⟩, rfl, rfl, rfl⟩

end Sys2Proof.Proofs

/-! SUPPORT. RENDER of a channel that shows nothing (42_peak_meter.md R122): the body's first branch drives COLS in the
zero record of R74 and touches no register. -/

namespace Sys2Proof.Machine

/-- Driving COLS from the zero record replaces the output record and no other field. -/
theorem State.clearOut_driveCols (s : State) (cols : List Byte) :
    s.clearOut.driveCols cols = { s with out := some { Out.zero with cols := cols } } := rfl

end Sys2Proof.Machine

namespace Sys2Proof.Proofs

open Sys2Proof.Machine

/-- Settles O30: clearing the record keeps LEVEL and the configuration, so the body takes the branch of the empty bar,
and that bar is all it drives. -/
theorem renderOfEmptyChannelShowsTheBorder : Obligations.RenderOfEmptyChannelShowsTheBorder := by
  intro ch s hready hlevel
  have hbody : renderBody ch s.clearOut = .ok (s.clearOut.driveCols (emptyBar s.cfg)) :=
    renderBody_of_empty (s := s.clearOut) hlevel
  rw [State.clearOut_driveCols] at hbody
  exact transact_of_ok hready hbody

end Sys2Proof.Proofs

/-! SUPPORT. The host operations (43_host_ops.md): a reserved form answers the same refusal whatever the state, and
CLRDIRTY writes one register after the zero record of R74. -/

namespace Sys2Proof.Machine

/-! ### Reserved transactions (R69, R142) -/

/-- The meanings of the four reserved forms do not read the state: no configuration and no STATE comes before the OPSEL. -/
theorem exec_reserved_forms (s : State) :
    exec .rsv4 s = .refused (.reservedTransaction 4) ∧ exec .rsv5 s = .refused (.reservedTransaction 5) ∧
    exec .rsv6 s = .refused (.reservedTransaction 6) ∧ exec .rsv7 s = .refused (.reservedTransaction 7) :=
  ⟨rfl, rfl, rfl, rfl⟩

/-- A step that accepts a reserved word is refused by the word's own OPSEL (R69, R142). -/
theorem step_of_reserved_word {s : State} {w : TransWord} {rest : List TransWord} (hp : s.pending = w :: rest)
    (hopsel : 4 ≤ (opselField w).toNat) : step s = .refused (.reservedTransaction (opselField w)) := by
  rw [step_of_pending_cons hp]
  exact exec_decode_reserved hopsel (s.accepted rest)

/-! ### CLRDIRTY (R61, R140) -/

/-- OPSEL 2 is CLRDIRTY; no bit of DATA is read (R61, R140). -/
theorem decode_of_opsel_two {w : TransWord} (h : opselField w = 2) : decode w = .clrDirty := by
  simp [decode, h]

/-- Clearing DIRTY under the zero record replaces those two fields and no other. -/
theorem State.clearOut_setDirty (s : State) (b : Bool) :
    s.clearOut.setDirty b = { s with dirty := b, out := some Out.zero } := rfl

/-- In a ready state CLRDIRTY is done, and clears DIRTY under the zero record (R140). -/
theorem exec_clrDirty_of_ready {s : State} (h : s.Ready) : exec .clrDirty s = .next (s.clearOut.setDirty false) :=
  transact_of_ok (body := clrDirtyBody) h rfl

end Sys2Proof.Machine

namespace Sys2Proof.Proofs

open Sys2Proof.Machine

/-- Settles O12: the reserved forms read no state, and a reserved word decodes to the form of its OPSEL. -/
theorem reservedTransactionsAreRefused : Obligations.ReservedTransactionsAreRefused :=
  ⟨exec_reserved_forms, fun _ _ _ => step_of_reserved_word⟩

/-- Settles O37: OPSEL alone selects CLRDIRTY, whose body replaces DIRTY in the state with the zero record. -/
theorem clearDirtyClearsOnlyDirty : Obligations.ClearDirtyClearsOnlyDirty := by
  refine ⟨fun _ => decode_of_opsel_two, fun s hready => ?_⟩
  rw [exec_clrDirty_of_ready hready, State.clearOut_setDirty]

end Sys2Proof.Proofs

/-! SUPPORT. A display message without a terminator (41_display_decoder.md R104): the predicate holds, and `Decode` stops
before it reads the offset (60_exceptions.md R154). -/

namespace Sys2Proof.Machine

/-- A message has no payload length exactly where no TERMINATOR stands at or after PAYLOAD_INDEX (R104). -/
theorem payloadLength?_eq_none_iff {c : Params} {m : List Byte} :
    payloadLength? c m = none ↔ c.terminator ∉ m.drop c.payloadIndex := by
  rw [payloadLength?, List.findIdx?_eq_none_iff]
  constructor
  · intro hnone hmem
    simpa using hnone c.terminator hmem
  · intro hmem b hb
    exact beq_eq_false_iff_ne.2 fun heq => hmem (heq ▸ hb)

/-- `Decode` of a display message without a terminator raises MALFORMED_NO_TERMINATOR and writes nothing (R104). -/
theorem displayDecode_of_unterminated {m : List Byte} {s : State} (hm : IsDisplayMessage s.cfg m)
    (hterminator : s.cfg.terminator ∉ m.drop s.cfg.payloadIndex) :
    displayDecode m s = .ok (s.raise .malformedNoTerminator) := by
  have hpredicate := displayPredicate_iff.2 hm
  have hlength := payloadLength?_eq_none_iff.2 hterminator
  obtain ⟨hfails, -⟩ | ⟨-, -, hdecode⟩ | ⟨p, -, hp, -⟩ := displayDecode_cases m s
  · simp [hpredicate] at hfails
  · exact hdecode
  · simp [hlength] at hp

end Sys2Proof.Machine

namespace Sys2Proof.Proofs

open Sys2Proof.Machine

/-- Settles O24: the transaction decodes the completed message, and `Decode` only raises MALFORMED_NO_TERMINATOR, with no
case on the offset; storing the fragment and re-arming leave TEXT, DIRTY and the meters, and nothing drives WRITTEN. -/
theorem unterminatedMessageLeavesTheText : Obligations.UnterminatedMessageLeavesTheText := by
  intro i bs s hi hready hfits hm hterminator
  obtain ⟨u, hdecode, hexec⟩ := exec_terminal_of_fits hi hready hfits
  have hrejects := displayDecode_of_unterminated
    (s := (s.clearOut.terminated bs).driveMessage (s.message ++ bs)) hm hterminator
  obtain rfl := Except.ok.inj (hrejects.symm.trans hdecode)
  exact ⟨_, _, hexec, rfl, Params.toLen_zero _, ⟨rfl, rfl⟩, ⟨rfl, rfl⟩, ⟨rfl, rfl, rfl⟩, rfl, rfl, rfl⟩

end Sys2Proof.Proofs

/-! SUPPORT. Why no condition is fatal (60_exceptions.md R151): every body keeps the configuration, and ends either
re-armed or with a legal STATE and a report that is none of the codes 1 to 5. -/

namespace Sys2Proof.Machine

/-- The conditions of R151, codes 1 to 5: those of a completed message and FRAMING_OVERFLOW (R150). -/
abbrev Cond.EndsMessage (c : Cond) : Prop := 1 ≤ c.code.toNat ∧ c.code.toNat ≤ 5

/-- STATE is Idle and the buffer is empty, as after a completed or a dropped message (R81, R86). -/
abbrev State.Rearmed (s : State) : Prop := s.framing = .idle ∧ s.len = 0

/-- Emptying the buffer under STATE Idle re-arms. -/
theorem State.setLen_setFraming_rearmed (s : State) : ((s.setLen 0).setFraming .idle).Rearmed :=
  ⟨rfl, Params.toLen_zero _⟩

/-- FramingOverflow re-arms (R81). -/
theorem State.overflowed_rearmed (s : State) : s.overflowed.Rearmed := s.setLen_setFraming_rearmed

/-! ### The fragment forms -/

/-- `Decode` keeps the configuration (R20). -/
theorem displayDecode_cfg {m : List Byte} {s t : State} (h : displayDecode m s = .ok t) : t.cfg = s.cfg := by
  obtain ⟨-, hbody⟩ | ⟨-, -, hbody⟩ | ⟨p, -, -, hbody⟩ := displayDecode_cases m s <;>
    obtain rfl := Except.ok.inj (hbody.symm.trans h) <;> rfl

/-- Completion keeps the configuration and re-arms, whatever `Decode` reported (R86). -/
theorem complete_rearms {s t : State} (h : complete s = .ok t) : t.cfg = s.cfg ∧ t.Rearmed := by
  obtain ⟨u, hdecode, hcomplete⟩ := complete_ok s
  obtain rfl := Except.ok.inj (hcomplete.symm.trans h)
  -- driving the message before and re-arming after keep the configuration
  have hcfg := displayDecode_cfg hdecode
  exact ⟨hcfg, u.setLen_setFraming_rearmed⟩

/-- A terminal fragment keeps the configuration and re-arms, whether it completes a message or overflows (R83 to R87). -/
theorem sxEndBody_rearms {bs : List Byte} {s t : State} (h : sxEndBody bs s = .ok t) : t.cfg = s.cfg ∧ t.Rearmed := by
  obtain hfits | hover := le_or_gt (s.len + bs.length) s.cfg.cap
  · obtain ⟨hcfg, hrearmed⟩ := complete_rearms ((sxEndBody_of_fits hfits).symm.trans h)
    exact ⟨hcfg, hrearmed⟩
  · obtain rfl := Except.ok.inj ((sxEndBody_of_overflow hover).symm.trans h)
    exact ⟨rfl, s.overflowed_rearmed⟩

/-- SX_CONT keeps the configuration; it overflows and re-arms, or is Accumulating with nothing to report (R82). -/
theorem sxContBody_rearms_or_accumulates {b1 b2 b3 : Byte} {s t : State} (h : sxContBody b1 b2 b3 s = .ok t) :
    t.cfg = s.cfg ∧ (t.Rearmed ∨ (t.framing = .accumulating ∧ t.outNow = s.outNow)) := by
  obtain ⟨-, -, hout⟩ := s.freshStart_frame
  obtain hfits | hover := le_or_gt (s.freshStart.len + 3) s.freshStart.cfg.cap
  · obtain rfl := Except.ok.inj ((sxContBody_of_fits hfits).symm.trans h)
    exact ⟨s.freshStart_cfg, .inr ⟨rfl, hout⟩⟩
  · obtain rfl := Except.ok.inj ((sxContBody_of_overflow hover).symm.trans h)
    exact ⟨s.freshStart_cfg, .inl s.freshStart.overflowed_rearmed⟩

/-! ### RENDER -/

/-- An exhausted bar leaves the configuration and STATE (R126). -/
theorem State.exhaust_cfg_framing (ch : BitVec 3) (e : Int) (s : State) :
    (s.exhaust ch e).cfg = s.cfg ∧ (s.exhaust ch e).framing = s.framing := by
  simp only [State.exhaust]
  split <;> exact ⟨rfl, rfl⟩

/-- RENDER leaves the configuration and STATE (R121, R131). -/
theorem renderBody_cfg_framing {ch : BitVec 3} {s t : State} (h : renderBody ch s = .ok t) :
    t.cfg = s.cfg ∧ t.framing = s.framing := by
  by_cases hlevel : s.levelOf ch = 0
  · obtain rfl := Except.ok.inj ((renderBody_of_empty hlevel).symm.trans h)
    exact ⟨rfl, rfl⟩
  · obtain rfl := Except.ok.inj ((renderBody_of_lit hlevel).symm.trans h)
    exact State.exhaust_cfg_framing ch _ _

/-! ### Any transaction -/

/-- A transaction goes on from ready states only. -/
theorem ready_of_exec_next {i : Instr} {s t : State} (h : exec i s = .next t) : s.Ready := by
  by_contra hready
  obtain ⟨r, hr⟩ := exec_refused_of_not_ready hready i
  simp [hr] at h

/-- A done transaction keeps the configuration. It re-arms; or it leaves STATE as it was or Accumulating, and reports none
of the codes 1 to 5 (R151). -/
theorem Done.rearmed_cases {i : Instr} {s t : State} (h : Done s t i) : t.cfg = s.cfg ∧
    (t.Rearmed ∨ ((t.framing = s.framing ∨ t.framing = .accumulating) ∧ ¬ t.outNow.cond.EndsMessage)) := by
  cases h with
  | ignored hi ht => subst ht; exact ⟨rfl, .inr ⟨.inl rfl, by simp [Cond.code]⟩⟩
  | sxCont hbody =>
    obtain ⟨hcfg, hrearmed | ⟨hframing, hout⟩⟩ := sxContBody_rearms_or_accumulates hbody
    · exact ⟨hcfg, .inl hrearmed⟩
    · exact ⟨hcfg, .inr ⟨.inr hframing, by simp [hout, Out.zero, Cond.code]⟩⟩
  | sxEnd hi hbody =>
    obtain ⟨hcfg, hrearmed⟩ := sxEndBody_rearms hbody
    exact ⟨hcfg, .inl hrearmed⟩
  | pressure hbody =>
    obtain rfl := Except.ok.inj hbody
    exact ⟨rfl, .inr ⟨.inl rfl, by simp [Cond.code]⟩⟩
  | render hbody =>
    obtain ⟨hcfg, hframing⟩ := renderBody_cfg_framing hbody
    obtain ⟨-, hcond, -⟩ := renderBody_frame hbody
    exact ⟨hcfg, .inr ⟨.inl hframing, by simp [hcond, Out.zero, Cond.code]⟩⟩
  | clrDirty ht => subst ht; exact ⟨rfl, .inr ⟨.inl rfl, by simp [Out.zero, Cond.code]⟩⟩
  | reset ht => subst ht; exact ⟨rfl, .inl ⟨rfl, rfl⟩⟩

/-- A done transaction leaves the block ready for the next one (R151). -/
theorem Done.ready {i : Instr} {s t : State} (h : Done s t i) (hready : s.Ready) : t.Ready := by
  obtain ⟨hvalid, hframing⟩ := hready
  obtain ⟨hcfg, ⟨hidle, -⟩ | ⟨hsame | haccumulating, -⟩⟩ := h.rearmed_cases
  · exact ⟨hcfg ▸ hvalid, .inl hidle⟩
  · exact ⟨hcfg ▸ hvalid, hsame ▸ hframing⟩
  · exact ⟨hcfg ▸ hvalid, .inr haccumulating⟩

end Sys2Proof.Machine

namespace Sys2Proof.Proofs

open Sys2Proof.Machine

/-- Settles O13: what the transaction ran either re-armed or reported none of the codes 1 to 5, and left STATE legal. -/
theorem conditionsAreNeverFatal : Obligations.ConditionsAreNeverFatal := by
  intro i s t o hexec hout
  have hdone := done_of_exec_next hexec
  refine ⟨hdone.ready (ready_of_exec_next hexec), fun hcode => ?_⟩
  obtain ⟨-, hrearmed | ⟨-, hnone⟩⟩ := hdone.rearmed_cases
  · exact hrearmed
  · rw [State.outNow_of_out hout] at hnone
    exact absurd hcode hnone

end Sys2Proof.Proofs

/-! SUPPORT. Reset and the configuration (70_reset_and_hazards.md R170, R172): the registers `applyReset` writes, the
power-on state as a state that it leaves as it is, and the frame of a step on the configuration. -/

namespace Sys2Proof.Machine

/-! ### The reset values (R170) -/

/-- STATE, LEN and DIRTY hold their reset values, and so does the meter of every channel. -/
abbrev State.HasResetRegisters (s : State) : Prop :=
  s.framing = .idle ∧ s.len = 0 ∧ (∀ c, s.levelOf c = 0 ∧ s.decayOf c = 0) ∧ s.dirty = false

/-- Each channel's meter is one register of the two rows of zeros. -/
theorem State.applyReset_channel (s : State) (c : BitVec 3) :
    s.applyReset.levelOf c = 0 ∧ s.applyReset.decayOf c = 0 :=
  ⟨Vector.getElem_replicate c.isLt, Vector.getElem_replicate c.isLt⟩

/-- The reset of R170 gives the registers their values, whatever they held. -/
theorem State.applyReset_hasResetRegisters (s : State) : s.applyReset.HasResetRegisters :=
  ⟨rfl, rfl, s.applyReset_channel, rfl⟩

/-- The power-on state holds the reset values already, in its own configuration. -/
theorem State.applyReset_reset : State.reset.applyReset = State.reset := rfl

/-- A cell of TEXT for which TEXT_INIT gives a byte holds that byte after reset. -/
theorem read?_resetText_of_getElem? {c : Params} {a : Nat} {b : Byte} (ha : a < c.textSize)
    (hb : c.textInit[a]? = some b) (draw : Nat) : (resetText c draw).read? a = some b := by
  simp [read?_resetText, ha, List.getD_eq_getElem?_getD, hb]

/-- In the reference configuration TEXT_INIT gives exactly the cells of TEXT (R6). -/
theorem textInit_reference_isSome_iff (a : Nat) :
    (Params.reference.textInit[a]?).isSome ↔ a < Params.reference.textSize := by
  simp [Params.reference]

/-- In the reference configuration TEXT after reset is TEXT_INIT, address by address. -/
theorem read?_resetText_reference (draw a : Nat) :
    (resetText Params.reference draw).read? a = Params.reference.textInit[a]? := by
  cases hb : Params.reference.textInit[a]? with
  | some b =>
    have ha := (textInit_reference_isSome_iff a).1 (by simp [hb])
    exact read?_resetText_of_getElem? ha hb draw
  | none =>
    have ha : ¬ a < Params.reference.textSize := fun ha => by simpa [hb] using (textInit_reference_isSome_iff a).2 ha
    rw [read?_resetText, if_neg ha]

/-- In a ready state RESET is done, and applies the reset of R170 under the zero record (R141). -/
theorem exec_reset_of_ready {s : State} (h : s.Ready) : exec .reset s = .next s.clearOut.applyReset :=
  transact_of_ok (body := resetBody) h rfl

/-! ### The configuration (R20, R172) -/

/-- A transaction keeps the configuration. -/
theorem exec_cfg {i : Instr} {s t : State} (h : exec i s = .next t) : t.cfg = s.cfg := by
  obtain ⟨hcfg, -⟩ := (done_of_exec_next h).rearmed_cases
  exact hcfg

/-- A step keeps the configuration: the idle step drops the output record only, and accepting a word touches the waiting
words and the draw only. -/
theorem step_cfg {s t : State} (h : step s = .next t) : t.cfg = s.cfg := by
  cases hp : s.pending with
  | nil =>
    rw [step_of_pending_nil hp] at h
    obtain ⟨-, rfl⟩ := idle_next_iff.1 h
    rfl
  | cons w rest =>
    rw [step_of_pending_cons hp] at h
    have hcfg := exec_cfg h
    exact hcfg

end Sys2Proof.Machine

namespace Sys2Proof.Proofs

open Sys2Proof.Machine

/-- Settles O38: RESET applies the reset of R170, and the power-on state is one that this reset leaves as it is, so the
registers of both are those of `State.applyReset_hasResetRegisters`. -/
theorem resetGivesEveryRegisterItsValue : Obligations.ResetGivesEveryRegisterItsValue := by
  refine ⟨fun s hready => ?_, ?_⟩
  · obtain ⟨hframing, hlen, hmeters, hdirty⟩ := s.clearOut.applyReset_hasResetRegisters
    exact ⟨_, exec_reset_of_ready hready, hframing, hlen, fun _ _ ha hb => read?_resetText_of_getElem? ha hb s.draws,
      hmeters, hdirty, rfl, rfl, rfl, rfl⟩
  · obtain ⟨hframing, hlen, hmeters, hdirty⟩ := State.applyReset_reset ▸ State.reset.applyReset_hasResetRegisters
    exact ⟨hframing, hlen, read?_resetText_reference 0, hmeters, hdirty⟩

/-- Settles O40: both kinds of step keep the configuration, the idle one and the one that runs a transaction. -/
theorem configurationIsFixedForLife : Obligations.ConfigurationIsFixedForLife := fun _ _ h => step_cfg h

end Sys2Proof.Proofs

/-! SUPPORT. The bits that some rule reads (30_encoding.md sections 2, 3 and 6): `careMask` is a union of fields, the
fields of a word decide what it decodes to, and the decoded form gives those fields back. -/

namespace Sys2Proof

/-! ### Masks and fields -/

/-- The mask of the field of `len` bits from bit `start` upward. -/
def fieldMask (start len : Nat) : TransWord := BitVec.ofNat 35 ((2 ^ len - 1) <<< start)

/-- The bits of a field's mask are those of the field. -/
theorem getLsbD_fieldMask (start len i : Nat) :
    (fieldMask start len).getLsbD i = (decide (i < 35) && decide (start ≤ i ∧ i < start + len)) := by
  have hshift : i - start < len ∧ start ≤ i ↔ start ≤ i ∧ i < start + len := by omega
  simp [fieldMask, BitVec.getLsbD_ofNat, Nat.testBit_shiftLeft, Nat.testBit_two_pow_sub_one, ← hshift, and_comm]

/-- Two words agree under a field's mask exactly where the field is the same in both. -/
theorem and_fieldMask_eq_iff {w w' : TransWord} {start len : Nat} :
    w &&& fieldMask start len = w' &&& fieldMask start len ↔ w.extractLsb' start len = w'.extractLsb' start len := by
  constructor
  · intro h
    apply BitVec.eq_of_getLsbD_eq
    intro i hi
    have hbit := congrArg (fun v => v.getLsbD (start + i)) h
    simp only [BitVec.getLsbD_and, getLsbD_fieldMask] at hbit
    by_cases hwidth : start + i < 35
    · simpa [hi, hwidth] using hbit
    · simp [BitVec.getLsbD_of_ge _ _ (Nat.le_of_not_lt hwidth)]
  · intro h
    apply BitVec.eq_of_getLsbD_eq
    intro i hi
    simp only [BitVec.getLsbD_and, getLsbD_fieldMask]
    by_cases hfield : start ≤ i ∧ i < start + len
    · have hbit := congrArg (fun v => v.getLsbD (i - start)) h
      have hlt : i - start < len := by omega
      simp only [BitVec.getLsbD_extractLsb', hlt, decide_true, Bool.true_and, Nat.add_sub_cancel' hfield.1] at hbit
      rw [hbit]
    · simp [hfield]

/-- Two words agree under a union of masks exactly where they agree under each. -/
theorem and_or_eq_iff {w w' m n : TransWord} :
    w &&& (m ||| n) = w' &&& (m ||| n) ↔ w &&& m = w' &&& m ∧ w &&& n = w' &&& n := by
  constructor
  · intro h
    have absorb : ∀ v p q : TransWord, v &&& (p ||| q) &&& p = v &&& p := fun v p q => by
      ext i hi
      cases hp : p[i] <;> simp [hp]
    constructor
    · rw [← absorb w m n, h, absorb]
    · rw [← absorb w n m, BitVec.or_comm n m, h, BitVec.or_comm m n, absorb]
  · rintro ⟨hm, hn⟩
    rw [BitVec.and_or_distrib_left, BitVec.and_or_distrib_left, hm, hn]

/-! ### The fields that are read (R63 to R68) -/

/-- The fields of an instruction's word that some rule reads, each by its lowest bit and its width: OPSEL, the CIN of a
FEED, and the operands. -/
def readFields : Instr → List (Nat × Nat)
  | .ign0 | .ign1 | .ign2 | .ign3 => [(32, 3), (24, 4)]
  | .sxCont _ _ _ => [(32, 3), (24, 4), (16, 8), (8, 8), (0, 8)]
  | .sxEnd1 _ => [(32, 3), (24, 4), (16, 8)]
  | .sxEnd2 _ _ => [(32, 3), (24, 4), (16, 8), (8, 8)]
  | .sxEnd3 _ _ _ => [(32, 3), (24, 4), (16, 8), (8, 8), (0, 8)]
  | .ign8 | .ign9 | .ignA | .ignB | .ignC => [(32, 3), (24, 4)]
  | .pressure _ => [(32, 3), (24, 4), (8, 8)]
  | .ignE | .ignF => [(32, 3), (24, 4)]
  | .render _ => [(32, 3), (0, 3)]
  | .clrDirty | .reset => [(32, 3)]
  | .rsv4 | .rsv5 | .rsv6 | .rsv7 => [(32, 3)]

/-- The two words have the same fields as far as a rule reads them of the instruction's word. -/
def SameReads (i : Instr) (w w' : TransWord) : Prop :=
  ∀ f ∈ readFields i, w.extractLsb' f.1 f.2 = w'.extractLsb' f.1 f.2

/-- The care mask is the union of the masks of the read fields. -/
theorem careMask_eq_union (i : Instr) :
    careMask i = (readFields i).foldr (fun f m => fieldMask f.1 f.2 ||| m) 0 := by
  cases i <;> rfl

/-- Two words agree under a union of field masks exactly where they have those fields in common. -/
theorem and_union_eq_iff {w w' : TransWord} (fs : List (Nat × Nat)) :
    w &&& fs.foldr (fun f m => fieldMask f.1 f.2 ||| m) 0 = w' &&& fs.foldr (fun f m => fieldMask f.1 f.2 ||| m) 0 ↔
      ∀ f ∈ fs, w.extractLsb' f.1 f.2 = w'.extractLsb' f.1 f.2 := by
  induction fs with
  | nil => simp
  | cons f fs ih => rw [List.foldr_cons, and_or_eq_iff, and_fieldMask_eq_iff, ih, List.forall_mem_cons]

/-- Words that agree under the care mask are those with the same read fields. -/
theorem and_careMask_eq_iff {i : Instr} {w w' : TransWord} :
    w &&& careMask i = w' &&& careMask i ↔ SameReads i w w' := by
  rw [careMask_eq_union, and_union_eq_iff, SameReads]

/-! ### The fields of an assembled host or reserved word (R60, R67) -/

/-- OPSEL of an assembled word. -/
@[simp] theorem opselField_wordOf (o : BitVec 3) (d : BitVec 32) : opselField (wordOf o d) = o :=
  BitVec.extractLsb'_append_eq_left

/-- CH of an assembled RENDER. -/
@[simp] theorem chField_wordOf (o c : BitVec 3) : chField (wordOf o (0#29 ++ c)) = c := by
  rw [chField, wordOf, BitVec.extractLsb'_append_eq_of_add_le (by decide), BitVec.extractLsb'_append_eq_right]

/-! ### What the fields decide -/

/-- The read fields, by their names (R60, R62, R67). -/
theorem fields_by_name (w : TransWord) :
    w.extractLsb' 32 3 = opselField w ∧ w.extractLsb' 24 4 = cinField w ∧ w.extractLsb' 16 8 = b1Field w ∧
      w.extractLsb' 8 8 = b2Field w ∧ w.extractLsb' 0 8 = b3Field w ∧ w.extractLsb' 0 3 = chField w :=
  ⟨rfl, rfl, rfl, rfl, rfl, rfl⟩

/-- A word whose read fields are those of an instruction's own word decodes to the instruction (R61, R63). -/
theorem decode_of_sameReads {i : Instr} {w : TransWord} (h : SameReads i w (encode i)) : decode w = i := by
  cases i with
  | ign0 | ign1 | ign2 | ign3 | ign8 | ign9 | ignA | ignB | ignC | ignE | ignF =>
    -- OPSEL 0 and the form's CIN
    simp only [SameReads, readFields, List.forall_mem_cons, fields_by_name, encode, opselField_feedWord,
      cinField_feedWord] at h
    simp [decode, decodeFeed, h]
  | sxCont | sxEnd1 | sxEnd2 | sxEnd3 | pressure =>
    -- OPSEL 0, the form's CIN, and its operand bytes
    simp only [SameReads, readFields, List.forall_mem_cons, fields_by_name, encode, opselField_feedWord,
      cinField_feedWord, b1Field_feedWord, b2Field_feedWord, b3Field_feedWord] at h
    simp [decode, decodeFeed, h]
  | render | clrDirty | reset | rsv4 | rsv5 | rsv6 | rsv7 =>
    -- the form's OPSEL, and CH of a RENDER
    simp only [SameReads, readFields, List.forall_mem_cons, fields_by_name, encode, opselField_wordOf,
      chField_wordOf] at h
    simp [decode, h]

/-- The encoder's word of an instruction has its own fields, so it decodes to the instruction. -/
theorem decode_encode (i : Instr) : decode (encode i) = i := decode_of_sameReads fun _ _ => rfl

/-- The encoder's word of a well-formed instruction decodes to a well-formed one. -/
theorem wellFormed_decode_encode {i : Instr} (hi : WellFormed i = true) : WellFormed (decode (encode i)) = true := by
  rw [decode_encode, hi]

/-- The encoder's word of a FEED form gives the fields that the decoder read back (R75). -/
theorem sameReads_encode_decodeFeed {w : TransWord} (h : opselField w = 0) :
    SameReads (decodeFeed w) w (encode (decodeFeed w)) := by
  obtain ⟨k, hk, hcin⟩ : ∃ k < 16, cinField w = BitVec.ofNat 4 k := ⟨_, (cinField w).isLt, by simp⟩
  interval_cases k <;> simp [decodeFeed, hcin, SameReads, readFields, fields_by_name, encode, h]

/-- The encoder's word of a decoded word gives the fields that the decoder read back (R75). -/
theorem sameReads_encode_decode (w : TransWord) : SameReads (decode w) w (encode (decode w)) := by
  by_cases hfeed : opselField w = 0
  · rw [decode_of_opsel_zero hfeed]
    exact sameReads_encode_decodeFeed hfeed
  · obtain ⟨k, hk, hopsel⟩ : ∃ k < 8, opselField w = BitVec.ofNat 3 k := ⟨_, (opselField w).isLt, by simp⟩
    interval_cases k
    · exact absurd hopsel hfeed
    all_goals simp [decode, hopsel, SameReads, readFields, fields_by_name, encode]

end Sys2Proof

namespace Sys2Proof

/-! ### The rows of the opcode table (R76) -/

/-- The encoder's word of every form selects a row with the form's mnemonic. -/
theorem rowMatch (i : Instr) : Laws.RowMatch.Statement i := by
  cases i with
  | ign0 => exact Laws.RowMatch.ign0
  | ign1 => exact Laws.RowMatch.ign1
  | ign2 => exact Laws.RowMatch.ign2
  | ign3 => exact Laws.RowMatch.ign3
  | sxCont b1 b2 b3 => exact Laws.RowMatch.sxCont b1 b2 b3
  | sxEnd1 b1 => exact Laws.RowMatch.sxEnd1 b1
  | sxEnd2 b1 b2 => exact Laws.RowMatch.sxEnd2 b1 b2
  | sxEnd3 b1 b2 b3 => exact Laws.RowMatch.sxEnd3 b1 b2 b3
  | ign8 => exact Laws.RowMatch.ign8
  | ign9 => exact Laws.RowMatch.ign9
  | ignA => exact Laws.RowMatch.ignA
  | ignB => exact Laws.RowMatch.ignB
  | ignC => exact Laws.RowMatch.ignC
  | pressure b2 => exact Laws.RowMatch.pressure b2
  | ignE => exact Laws.RowMatch.ignE
  | ignF => exact Laws.RowMatch.ignF
  | render ch => exact Laws.RowMatch.render ch
  | clrDirty => exact Laws.RowMatch.clrDirty
  | reset => exact Laws.RowMatch.reset
  | rsv4 => exact Laws.RowMatch.rsv4
  | rsv5 => exact Laws.RowMatch.rsv5
  | rsv6 => exact Laws.RowMatch.rsv6
  | rsv7 => exact Laws.RowMatch.rsv7

/-- OPSEL is read of every word. -/
theorem opselField_encode_decode (w : TransWord) : opselField (encode (decode w)) = opselField w := by
  have hread : (32, 3) ∈ readFields (decode w) := by cases decode w <;> simp [readFields]
  exact (sameReads_encode_decode w _ hread).symm

/-- CIN is read of every FEED. -/
theorem cinField_encode_decode {w : TransWord} (h : opselField w = 0) :
    cinField (encode (decode w)) = cinField w := by
  have hread : (24, 4) ∈ readFields (decode w) := by
    rw [decode_of_opsel_zero h, decodeFeed]
    split <;> simp [readFields]
  exact (sameReads_encode_decode w _ hread).symm

/-- A row selects by OPSEL alone, or it is a row of OPSEL 0 and selects by OPSEL and CIN (R76). -/
theorem OpcodeRow.mask_cases : ∀ r ∈ opcodeTable, r.mask = fieldMask 32 3 ∨
    (r.mask = fieldMask 32 3 ||| fieldMask 24 4 ∧ r.pattern &&& fieldMask 32 3 = 0) := by decide

/-- A row that selects the encoder's word of what a word decodes to selects the word itself. -/
theorem OpcodeRow.selects_of_selects_encode {r : OpcodeRow} (hr : r ∈ opcodeTable) {w : TransWord}
    (h : encode (decode w) &&& r.mask = r.pattern) : w &&& r.mask = r.pattern := by
  have hopsel := opselField_encode_decode w
  rw [← h]
  obtain hmask | ⟨hmask, hpattern⟩ := OpcodeRow.mask_cases r hr
  · rw [hmask]
    exact and_fieldMask_eq_iff.2 hopsel.symm
  · have hagree : encode (decode w) &&& r.mask = r.pattern &&& r.mask := by rw [← h, BitVec.and_assoc, BitVec.and_self]
    rw [hmask, and_or_eq_iff] at hagree
    have hfeed : opselField w = 0 := by
      rw [← hopsel]
      exact and_fieldMask_eq_iff.1 (hagree.1.trans (hpattern.trans BitVec.zero_and.symm))
    rw [hmask, and_or_eq_iff]
    exact ⟨and_fieldMask_eq_iff.2 hopsel.symm, and_fieldMask_eq_iff.2 (cinField_encode_decode hfeed).symm⟩

/-- No word selects two rows of the table: the two patterns differ under the common mask. -/
theorem opcodeTable_exclusive :
    opcodeTable.Pairwise (fun r r' => r.pattern &&& r'.mask ≠ r'.pattern &&& r.mask) := by decide

/-- Where a test holds of no two elements, an element of which it holds is all that the filter keeps. -/
theorem filter_eq_singleton_of_exclusive {α : Type} {p : α → Bool} {l : List α} {a : α}
    (hl : l.Pairwise (fun x y => ¬ (p x ∧ p y))) (ha : a ∈ l) (hp : p a) : l.filter p = [a] := by
  obtain ⟨front, back, rfl⟩ := List.append_of_mem ha
  obtain ⟨-, hback, hfront⟩ := List.pairwise_append.1 hl
  have hnoFront : front.filter p = [] :=
    List.filter_eq_nil_iff.2 fun x hx hpx => hfront x hx a List.mem_cons_self ⟨hpx, hp⟩
  have hnoBack : back.filter p = [] :=
    List.filter_eq_nil_iff.2 fun y hy hpy => List.rel_of_pairwise_cons hback hy ⟨hp, hpy⟩
  simp [List.filter_append, hnoFront, hnoBack, hp]

/-- The one row of the table that a word selects is any row that it selects. -/
theorem opcodeTable_filter_of_selects {r : OpcodeRow} (hr : r ∈ opcodeTable) {w : TransWord}
    (h : w &&& r.mask = r.pattern) : opcodeTable.filter (fun r => r.selectedBy w) = [r] := by
  have hexclusive : opcodeTable.Pairwise (fun r r' => ¬ (r.selectedBy w ∧ r'.selectedBy w)) := by
    refine opcodeTable_exclusive.imp fun {a b} hne ⟨ha, hb⟩ => hne ?_
    simp only [OpcodeRow.selectedBy, beq_iff_eq] at ha hb
    rw [← ha, ← hb, BitVec.and_assoc, BitVec.and_assoc, BitVec.and_comm a.mask]
  exact filter_eq_singleton_of_exclusive hexclusive hr (by simp [OpcodeRow.selectedBy, h])

end Sys2Proof

namespace Sys2Proof.Proofs

/-- Settles O1: the encoder's word has its own fields, and the fields that are read decide what a word decodes to. -/
theorem decodeInvertsEncode : Obligations.DecodeInvertsEncode := decode_encode

/-- Settles O2: the care mask is the union of the read fields, and the encoder gives each of them back. -/
theorem encodeOfDecodeKeepsEveryReadBit : Obligations.EncodeOfDecodeKeepsEveryReadBit :=
  fun w => (and_careMask_eq_iff.2 (sameReads_encode_decode w)).symm

/-- Settles O3: a word that agrees with `w` on the read bits agrees with the encoder's word of `decode w` on them, and
so decodes to the same form. -/
theorem dontCareBitsNeverMatter : Obligations.DontCareBitsNeverMatter := by
  intro w w' h
  have hreads := and_careMask_eq_iff.1 h
  exact decode_of_sameReads fun f hf => (hreads f hf).trans (sameReads_encode_decode w f hf)

/-- Settles O5: the row of the decoded form's own word selects the word too, and no word selects two rows. -/
theorem exactlyOneOpcodeRowSelectsEachWord : Obligations.ExactlyOneOpcodeRowSelectsEachWord := by
  intro w
  obtain ⟨r, hr, hmnemonic, hselects⟩ := rowMatch (decode w)
  exact ⟨r, opcodeTable_filter_of_selects hr (OpcodeRow.selects_of_selects_encode hr hselects), hmnemonic⟩

/-- Settles O6, by decoding each word. -/
theorem sampleWordsDecode : Obligations.SampleWordsDecode := by
  unfold Obligations.SampleWordsDecode
  decide

end Sys2Proof.Proofs

/-! SUPPORT. The effect of each transaction as one total function of the state (40_reassembler.md, 41_display_decoder.md,
42_peak_meter.md, 43_host_ops.md): `effect` says where a transaction ends, `exec_of_ready` ties it to the model, and the
lemmas after it say what each effect leaves unchanged. -/

namespace Sys2Proof.Machine

/-! ### The fragment forms (R81 to R86) -/

/-- The bytes stored at LEN, and LEN counting them (R81). -/
def State.stored (bs : List Byte) (s : State) : State :=
  (s.setBuf (s.buf.writeList s.len bs)).setLen (s.len + bs.length)

/-- The effect of SX_CONT (R82). -/
def State.continued (bs : List Byte) (s : State) : State :=
  if s.freshStart.len + bs.length ≤ s.cfg.cap then (s.freshStart.stored bs).setFraming .accumulating else s.overflowed

/-- SX_CONT has its effect. -/
theorem sxContBody_eq_continued (b1 b2 b3 : Byte) (s : State) :
    sxContBody b1 b2 b3 s = .ok (s.continued [b1, b2, b3]) := by
  obtain hfits | hover := le_or_gt (s.freshStart.len + 3) s.freshStart.cfg.cap
  · rw [sxContBody_of_fits hfits]
    exact congrArg Except.ok (if_pos (s.freshStart_cfg ▸ hfits)).symm
  · rw [sxContBody_of_overflow hover]
    refine congrArg Except.ok (Eq.trans s.freshStart_overflowed (if_neg ?_).symm)
    exact Nat.not_le.2 (s.freshStart_cfg ▸ hover)

/-- The effect of `Decode` (R100). -/
def State.decoded (m : List Byte) (s : State) : State :=
  if displayPredicate s.cfg m then
    (payloadLength? s.cfg m).elim (s.raise .malformedNoTerminator)
      (fun p => s.displayed (messageOffset s.cfg m) ((m.drop s.cfg.payloadIndex).take p))
  else s.raise .malformedPredicate

/-- `Decode` has its effect. -/
theorem displayDecode_eq_decoded (m : List Byte) (s : State) : displayDecode m s = .ok (s.decoded m) := by
  obtain ⟨hp, hdecode⟩ | ⟨hp, hnone, hdecode⟩ | ⟨p, hp, hsome, hdecode⟩ := displayDecode_cases m s
  · simp [hdecode, State.decoded, hp]
  · simp [hdecode, State.decoded, hp, hnone]
  · have hlength : min p (m.length - s.cfg.payloadIndex) = p := by
      have := payloadLength?_lt hsome
      omega
    simp [hdecode, State.decoded, hp, hsome, State.displayed, hlength, List.take_take,
      Nat.min_eq_left (writtenCount_le _ _ _)]

/-- `Decode` rejects with one of two reports, or displays a payload. -/
theorem State.decoded_cases (m : List Byte) (s : State) : s.decoded m = s.raise .malformedPredicate ∨
    s.decoded m = s.raise .malformedNoTerminator ∨ ∃ off pay, s.decoded m = s.displayed off pay := by
  simp only [State.decoded]
  split
  · cases payloadLength? s.cfg m with
    | none => exact .inr (.inl rfl)
    | some p => exact .inr (.inr ⟨_, _, rfl⟩)
  · exact .inl rfl

/-- The effect of completing the message `m` (R86). -/
def State.completed (m : List Byte) (s : State) : State :=
  (((s.driveMessage m).decoded m).setLen 0).setFraming .idle

/-- Completion has its effect. -/
theorem complete_eq_completed (s : State) : complete s = .ok (s.completed s.message) := by
  simp only [complete, displayDecode_eq_decoded, State.completed]

/-- The effect of a terminal fragment (R83 to R87). -/
def State.ended (bs : List Byte) (s : State) : State :=
  if s.len + bs.length ≤ s.cfg.cap then (s.terminated bs).completed (s.terminated bs).message else s.overflowed

/-- A terminal fragment has its effect. -/
theorem sxEndBody_eq_ended (bs : List Byte) (s : State) : sxEndBody bs s = .ok (s.ended bs) := by
  obtain hfits | hover := le_or_gt (s.len + bs.length) s.cfg.cap
  · rw [sxEndBody_of_fits hfits]
    exact (complete_eq_completed (s.terminated bs)).trans (congrArg Except.ok (if_pos hfits).symm)
  · rw [sxEndBody_of_overflow hover]
    exact congrArg Except.ok (if_neg (Nat.not_le.2 hover)).symm

/-! ### The meter forms (R120 to R127) -/

/-- Channel `ch` at the given level and decay. -/
def State.withMeter (ch : BitVec 3) (l : BitVec 4) (d : Int) (s : State) : State :=
  { s with level := s.level.set ch.toNat l ch.isLt, decay := s.decay.set ch.toNat d ch.isLt }

/-- The level of every channel after one meter is written. -/
theorem State.withMeter_levelOf (ch c : BitVec 3) (l : BitVec 4) (d : Int) (s : State) :
    (s.withMeter ch l d).levelOf c = if c = ch then l else s.levelOf c := s.levelOf_setLevel ch c l

/-- The decay of every channel after one meter is written. -/
theorem State.withMeter_decayOf (ch c : BitVec 3) (l : BitVec 4) (d : Int) (s : State) :
    (s.withMeter ch l d).decayOf c = if c = ch then d else s.decayOf c := by
  simp only [State.decayOf, State.withMeter, Vector.getElem_set]
  by_cases h : c = ch
  · simp [h]
  · have hne : ch.toNat ≠ c.toNat := fun e => h (BitVec.eq_of_toNat_eq e.symm)
    simp [h, hne]

/-- Writing a meter's own values changes nothing. -/
theorem State.withMeter_self (ch : BitVec 3) (s : State) : s.withMeter ch (s.levelOf ch) (s.decayOf ch) = s := by
  simp [State.withMeter, State.levelOf, State.decayOf]

/-- Two channels' meters can be written in either order. -/
theorem State.withMeter_comm {a b : BitVec 3} (h : a ≠ b) (l l' : BitVec 4) (d d' : Int) (s : State) :
    (s.withMeter a l d).withMeter b l' d' = (s.withMeter b l' d').withMeter a l d := by
  have hne : a.toNat ≠ b.toNat := fun e => h (BitVec.eq_of_toNat_eq e)
  simp only [State.withMeter, Vector.set_comm _ _ hne]

/-- The extent that a RENDER draws, from the old level and decay (R123, R124). -/
def renderExtent (c : Params) (l : BitVec 4) (d : Int) : Int := extent c (clampLevel c l) d

/-- The level after a RENDER (R122, R123, R126). -/
def renderLevel (c : Params) (l : BitVec 4) (d : Int) : BitVec 4 :=
  if l = 0 ∨ renderExtent c l d < 0 then 0 else clampLevel c l

/-- The decay after a RENDER (R122, R125). -/
def renderDecay (c : Params) (l : BitVec 4) (d : Int) : Int := if l = 0 then d else c.toDecay (decayedOnce c d)

/-- The bitmap of a RENDER (R122, R127). -/
def renderCols (c : Params) (l : BitVec 4) (d : Int) : List Byte :=
  if l = 0 then emptyBar c else bar c (max (renderExtent c l d) 0)

/-- The effect of RENDER (R121). -/
def State.rendered (ch : BitVec 3) (s : State) : State :=
  (s.withMeter ch (renderLevel s.cfg (s.levelOf ch) (s.decayOf ch))
    (renderDecay s.cfg (s.levelOf ch) (s.decayOf ch))).driveCols (renderCols s.cfg (s.levelOf ch) (s.decayOf ch))

/-- RENDER has its effect. -/
theorem renderBody_eq_rendered (ch : BitVec 3) (s : State) : renderBody ch s = .ok (s.rendered ch) := by
  by_cases hlevel : s.levelOf ch = 0
  · have hself : s.withMeter ch 0#4 (s.decayOf ch) = s := by simpa [hlevel] using s.withMeter_self ch
    rw [renderBody_of_empty hlevel]
    simp [State.rendered, renderLevel, renderDecay, renderCols, hlevel, hself]
  · rw [renderBody_of_lit hlevel]
    simp only [State.rendered, renderLevel, renderDecay, renderCols, renderExtent, State.exhaust, hlevel, if_false,
      false_or]
    split
    · simp [State.withMeter, State.setLevel, State.setDecay, State.driveCols, State.outNow]
    · rfl

/-- The effect of PRESSURE (R120). -/
def State.pressed (b2 : Byte) (s : State) : State :=
  (s.withMeter (channelOperand b2) (levelOperand b2) 0).raise .peakUpdated

/-- PRESSURE has its effect. -/
theorem pressureBody_eq_pressed (b2 : Byte) (s : State) : pressureBody b2 s = .ok (s.pressed b2) := by
  simp [pressureBody, State.pressed, State.withMeter, State.setDecay, State.setLevel]

/-! ### Every transaction (R61, R63) -/

/-- Where a transaction ends, from the state in which its body starts. The reserved forms have no effect (R142). -/
def effect : Instr → State → State
  | .sxCont b1 b2 b3, s => s.continued [b1, b2, b3]
  | .sxEnd1 b1, s => s.ended [b1]
  | .sxEnd2 b1 b2, s => s.ended [b1, b2]
  | .sxEnd3 b1 b2 b3, s => s.ended [b1, b2, b3]
  | .pressure b2, s => s.pressed b2
  | .render ch, s => s.rendered ch
  | .clrDirty, s => s.setDirty false
  | .reset, s => s.applyReset
  | .rsv4, s | .rsv5, s | .rsv6, s | .rsv7, s => s
  | .ign0, s | .ign1, s | .ign2, s | .ign3, s | .ign8, s | .ign9, s | .ignA, s | .ignB, s | .ignC, s | .ignE, s
  | .ignF, s => s.raise .ignored

/-- The effect of the terminal forms. -/
theorem effect_of_terminalBytes {i : Instr} {bs : List Byte} (hi : terminalBytes i = some bs) (s : State) :
    effect i s = s.ended bs := by
  cases i with
  | sxEnd1 | sxEnd2 | sxEnd3 => obtain rfl := Option.some.inj hi; rfl
  | _ => simp [terminalBytes] at hi

/-- In a ready state every well-formed transaction is done, and ends in its effect from a zero record (R12, R74). -/
theorem exec_of_ready {i : Instr} {s : State} (hi : WellFormed i = true) (hready : s.Ready) :
    exec i s = .next (effect i s.clearOut) := by
  cases i with
  | ign0 | ign1 | ign2 | ign3 | ign8 | ign9 | ignA | ignB | ignC | ignE | ignF =>
    exact transact_of_ok (body := ignoredBody) hready rfl
  | sxCont b1 b2 b3 => exact transact_of_ok hready (sxContBody_eq_continued b1 b2 b3 _)
  | sxEnd1 | sxEnd2 | sxEnd3 => exact transact_of_ok hready (sxEndBody_eq_ended _ _)
  | pressure b2 => exact transact_of_ok hready (pressureBody_eq_pressed b2 _)
  | render ch => exact transact_of_ok hready (renderBody_eq_rendered ch _)
  | clrDirty => exact exec_clrDirty_of_ready hready
  | reset => exact exec_reset_of_ready hready
  | rsv4 | rsv5 | rsv6 | rsv7 => simp [WellFormed] at hi

/-- A transaction goes on from a ready state only, only if it is well-formed, and only to its effect. -/
theorem exec_next_iff {i : Instr} {s t : State} :
    exec i s = .next t ↔ WellFormed i = true ∧ s.Ready ∧ t = effect i s.clearOut := by
  constructor
  · intro h
    have hready := ready_of_exec_next h
    cases hi : WellFormed i with
    | true => exact ⟨rfl, hready, by simpa [exec_of_ready hi hready, eq_comm] using h⟩
    | false =>
      obtain ⟨opsel, hexec⟩ := exec_of_not_wellFormed hi
      simp [hexec] at h
  · rintro ⟨hi, hready, rfl⟩
    exact exec_of_ready hi hready

/-! ### The model's own fields (log entries 1, 2, 4 and 5) -/

/-- Emptying the buffer at a start fragment leaves the model's own fields and the record. -/
theorem State.freshStart_host (s : State) : SameHost s s.freshStart ∧ s.freshStart.out = s.out := by
  simp only [State.freshStart]
  split <;> exact ⟨⟨rfl, rfl, rfl⟩, rfl⟩

/-- `Decode` writes no register but TEXT and DIRTY (R100). -/
theorem State.decoded_frame (m : List Byte) (s : State) :
    SameReassembler s (s.decoded m) ∧ SameMeters s (s.decoded m) ∧ SameHost s (s.decoded m) := by
  obtain h | h | ⟨off, pay, h⟩ := s.decoded_cases m <;> rw [h] <;>
    exact ⟨⟨rfl, rfl, rfl⟩, ⟨rfl, rfl⟩, rfl, rfl, rfl⟩

/-- `Decode` drives COND, with one of the four conditions of a completed message, and WRITTEN (R100, R150). -/
theorem State.decoded_out (m : List Byte) (s : State) : ∃ c w,
    (s.decoded m).out = some { s.outNow with cond := c, written := w } ∧
      c ∈ [Cond.applied, .regionOverflow, .malformedPredicate, .malformedNoTerminator] := by
  obtain h | h | ⟨off, pay, h⟩ := s.decoded_cases m <;> rw [h]
  · exact ⟨_, _, rfl, by simp⟩
  · exact ⟨_, _, rfl, by simp⟩
  · refine ⟨_, _, rfl, ?_⟩
    split <;> simp

/-- Completion re-arms with an empty buffer, and writes neither a meter nor a field of the model's own (R86). -/
theorem State.completed_frame (m : List Byte) (s : State) :
    (s.completed m).Rearmed ∧ (s.completed m).buf = [] ∧ SameMeters s (s.completed m) ∧ SameHost s (s.completed m) := by
  obtain ⟨-, hmeters, hhost⟩ := (s.driveMessage m).decoded_frame m
  exact ⟨State.setLen_setFraming_rearmed _, Memory.truncate_zero _, hmeters, hhost⟩

/-- SX_CONT leaves the model's own fields. -/
theorem State.continued_host (bs : List Byte) (s : State) : SameHost s (s.continued bs) := by
  obtain ⟨hhost, -⟩ := s.freshStart_host
  simp only [State.continued]
  split
  · exact hhost
  · exact ⟨rfl, rfl, rfl⟩

/-- A terminal fragment leaves the model's own fields. -/
theorem State.ended_host (bs : List Byte) (s : State) : SameHost s (s.ended bs) := by
  simp only [State.ended]
  split
  · obtain ⟨-, -, -, hhost⟩ := (s.terminated bs).completed_frame (s.terminated bs).message
    exact hhost
  · exact ⟨rfl, rfl, rfl⟩

/-- No transaction changes the configuration, the waiting words or the draw. -/
theorem effect_host (i : Instr) (s : State) : SameHost s (effect i s) := by
  cases i with
  | sxCont b1 b2 b3 => exact s.continued_host _
  | sxEnd1 | sxEnd2 | sxEnd3 => exact s.ended_host _
  | _ => exact ⟨rfl, rfl, rfl⟩

/-- From a state with a record SX_CONT ends with a record. -/
theorem State.continued_out_isSome {s : State} (h : s.out.isSome) (bs : List Byte) : (s.continued bs).out.isSome := by
  obtain ⟨-, hout⟩ := s.freshStart_host
  simp only [State.continued]
  split
  · exact hout ▸ h
  · rfl

/-- A terminal fragment ends with a record. -/
theorem State.ended_out_isSome (bs : List Byte) (s : State) : (s.ended bs).out.isSome := by
  simp only [State.ended]
  split
  · obtain ⟨c, w, hout, -⟩ := State.decoded_out (s.terminated bs).message
      ((s.terminated bs).driveMessage (s.terminated bs).message)
    exact Option.isSome_of_eq_some hout
  · rfl

/-- A transaction that starts from a record ends with one. -/
theorem effect_out_isSome {s : State} (h : s.out.isSome) (i : Instr) : (effect i s).out.isSome := by
  cases i with
  | sxCont b1 b2 b3 => exact State.continued_out_isSome h _
  | sxEnd1 | sxEnd2 | sxEnd3 => exact s.ended_out_isSome _
  | clrDirty | reset | rsv4 | rsv5 | rsv6 | rsv7 => exact h
  | _ => rfl

/-- A done transaction leaves the block ready. -/
theorem effect_ready {i : Instr} {s : State} (hi : WellFormed i = true) (h : s.Ready) :
    (effect i s.clearOut).Ready :=
  (done_of_exec_next (exec_of_ready hi h)).ready h

/-- No transaction faults: a well-formed one is done in a ready state, and any other case is refused (R12, R49). -/
theorem exec_never_faults (i : Instr) (s : State) (f : Fault) : exec i s ≠ .fault f := by
  intro hfault
  by_cases hready : s.Ready
  · cases hi : WellFormed i with
    | true => simp [exec_of_ready hi hready] at hfault
    | false =>
      obtain ⟨opsel, hexec⟩ := exec_of_not_wellFormed hi
      simp [hexec] at hfault
  · obtain ⟨r, hr⟩ := exec_refused_of_not_ready hready i
    simp [hr] at hfault

/-- No transaction reads the record of the one before it (R74, R152). -/
theorem exec_of_out (i : Instr) (s : State) (o : Option Out) : exec i { s with out := o } = exec i s := by
  cases hi : WellFormed i with
  | true =>
    obtain ⟨body, hbody⟩ := exec_eq_transact hi
    rw [hbody, hbody]
    rfl
  | false =>
    obtain ⟨opsel, hexec⟩ := exec_of_not_wellFormed hi
    rw [hexec, hexec]

end Sys2Proof.Machine

namespace Sys2Proof.Proofs

open Sys2Proof.Machine

/-- Settles O7: a step is what its first waiting word decodes to, or the idle step. -/
theorem stepRunsTheDecodedTransaction : Obligations.StepRunsTheDecodedTransaction :=
  ⟨fun _ _ _ hp => step_of_pending_cons hp,
    fun _ hp hready => (step_of_pending_nil hp).trans (idle_next_iff.2 ⟨hready, rfl⟩)⟩

/-- Settles O8: the transaction ends in its effect, which holds a record because the body starts from one, and is ready
because no condition is fatal. -/
theorem everyTransactionIsDone : Obligations.EveryTransactionIsDone := by
  intro i s hi hready
  obtain ⟨o, ho⟩ := Option.isSome_iff_exists.1 (effect_out_isSome (s := s.clearOut) rfl i)
  exact ⟨_, o, exec_of_ready hi hready, ho, effect_ready hi hready⟩

/-- Settles O9: neither the idle step nor a transaction faults. -/
theorem noStepEverFaults : Obligations.NoStepEverFaults := by
  intro s f
  cases hp : s.pending with
  | nil => exact step_of_pending_nil hp ▸ idle_never_faults s f
  | cons w rest => exact step_of_pending_cons hp ▸ exec_never_faults (decode w) _ f

/-- Settles O14: every body starts from the zero record, and the reserved forms read no state. -/
theorem earlierOutputHasNoEffect : Obligations.EarlierOutputHasNoEffect := exec_of_out

end Sys2Proof.Proofs

/-! SUPPORT. What the fragment forms do to the reassembler (20_memory.md, 40_reassembler.md sections 2 to 5): where the
bytes of a stored fragment stand in BUF, and where SX_CONT and a terminal fragment end. -/

namespace Sys2Proof.Machine

/-! ### The bytes of BUF (R42, R81) -/

/-- LEN after a fragment that fits is stored. -/
theorem State.stored_len {s : State} {bs : List Byte} (hvalid : s.cfg.valid = true)
    (hfits : s.len + bs.length ≤ s.cfg.cap) : (s.stored bs).len = s.len + bs.length :=
  Params.toLen_of_le hvalid hfits

/-- A stored fragment stands from the old LEN upward, every byte below is as before, and none is listed above. -/
theorem State.stored_buf_read? (s : State) (bs : List Byte) (a : Nat) : (s.stored bs).buf.read? a =
    if a < s.len then s.buf.read? a else bs[a - s.len]? := by
  change ((s.buf.writeList s.len bs).truncate (s.len + bs.length)).read? a = _
  rw [Memory.read?_truncate, Memory.read?_writeList]
  by_cases hold : a < s.len
  · rw [if_pos (by omega), if_neg (by omega), if_pos hold]
  · rw [if_neg hold]
    by_cases hnew : a < s.len + bs.length
    · rw [if_pos hnew, if_pos (by omega)]
    · rw [if_neg hnew, List.getElem?_eq_none (by omega)]

/-- A fragment stored behind LEN listed bytes leaves exactly the bytes below the new LEN listed. -/
theorem State.stored_lists {s : State} (h : s.buf.ListsBelow s.len) (bs : List Byte) :
    (s.stored bs).buf.ListsBelow (s.len + bs.length) := by
  have hlists := Memory.lists_append bs h
  have hkeep : (s.stored bs).buf = s.buf.writeList s.len bs := Memory.truncate_of_lists hlists (Nat.le_refl _)
  rw [Memory.ListsBelow, hkeep, hlists]

/-- A byte of BUF below the start of a fresh or continued message is as before: in Idle there is none. -/
theorem State.freshStart_buf_read? {s : State} {a : Nat} (ha : a < s.freshStart.len) :
    s.freshStart.buf.read? a = s.buf.read? a := by
  simp only [State.freshStart] at ha ⊢
  split at ha
  · simp at ha
  · next h => rw [if_neg h]

/-- SX_CONT where the fragment fits. -/
theorem State.continued_of_fits {s : State} {bs : List Byte} (h : s.freshStart.len + bs.length ≤ s.cfg.cap) :
    s.continued bs = (s.freshStart.stored bs).setFraming .accumulating := if_pos h

/-- SX_CONT where the fragment would overflow. -/
theorem State.continued_of_overflow {s : State} {bs : List Byte} (h : s.cfg.cap < s.freshStart.len + bs.length) :
    s.continued bs = s.overflowed := if_neg (Nat.not_le.2 h)

/-- SX_CONT writes neither the display nor a meter. -/
theorem State.continued_frame (bs : List Byte) (s : State) :
    SameDisplay s (s.continued bs) ∧ SameMeters s (s.continued bs) := by
  obtain ⟨hdisplay, hmeters, -⟩ := s.freshStart_frame
  simp only [State.continued]
  split
  · exact ⟨hdisplay, hmeters⟩
  · exact ⟨⟨rfl, rfl⟩, rfl, rfl⟩

/-- A terminal fragment where the bytes fit completes everything accumulated followed by its own bytes. -/
theorem State.ended_of_fits {s : State} {bs : List Byte} (hvalid : s.cfg.valid = true)
    (h : s.len + bs.length ≤ s.cfg.cap) : s.ended bs = (s.terminated bs).completed (s.message ++ bs) := by
  rw [State.ended, if_pos h, State.terminated_message hvalid h]

/-- A terminal fragment that would overflow. -/
theorem State.ended_of_overflow {s : State} {bs : List Byte} (h : s.cfg.cap < s.len + bs.length) :
    s.ended bs = s.overflowed := if_neg (Nat.not_le.2 h)

/-- A terminal fragment writes no meter. -/
theorem State.ended_meters (bs : List Byte) (s : State) : SameMeters s (s.ended bs) := by
  simp only [State.ended]
  split
  · obtain ⟨-, -, hmeters, -⟩ := (s.terminated bs).completed_frame (s.terminated bs).message
    exact hmeters
  · exact ⟨rfl, rfl⟩

/-- A terminal fragment re-arms with an empty buffer, whether it completes a message or overflows (R86, R87). -/
theorem State.ended_rearmed (bs : List Byte) (s : State) : (s.ended bs).Rearmed ∧ (s.ended bs).buf = [] := by
  simp only [State.ended]
  split
  · obtain ⟨hrearmed, hbuf, -, -⟩ := (s.terminated bs).completed_frame (s.terminated bs).message
    exact ⟨hrearmed, hbuf⟩
  · exact ⟨s.overflowed_rearmed, Memory.truncate_zero _⟩

/-- A terminal form is well-formed. -/
theorem wellFormed_of_terminalBytes {i : Instr} {bs : List Byte} (hi : terminalBytes i = some bs) :
    WellFormed i = true := by
  cases i with
  | sxEnd1 | sxEnd2 | sxEnd3 => rfl
  | _ => simp [terminalBytes] at hi

/-- The record of a completed message: the message, its length, a condition of the display decoder and a count. -/
theorem State.completed_out {s : State} {m : List Byte} (hvalid : s.cfg.valid = true) (hm : m.length ≤ s.cfg.cap) :
    ∃ c w, (s.completed m).out =
        some { s.outNow with msgValid := true, msgLen := m.length, msg := m, cond := c, written := w } ∧
      c ∈ [Cond.applied, .regionOverflow, .malformedPredicate, .malformedNoTerminator] := by
  obtain ⟨c, w, hout, hc⟩ := (s.driveMessage m).decoded_out m
  refine ⟨c, w, hout.trans ?_, hc⟩
  rw [State.driveMessage_outNow, Params.toLen_of_le hvalid hm]

end Sys2Proof.Machine

namespace Sys2Proof.Proofs

open Sys2Proof.Machine

/-- Settles O17: the fragment is appended at 0 in Idle and at LEN in Accumulating, by cases on whether it fits. -/
theorem continueAppendsThreeBytes : Obligations.ContinueAppendsThreeBytes := by
  intro s b1 b2 b3 n hready hn
  have hstart : s.clearOut.freshStart.len = n := (State.freshStart_len_of_ready (s := s.clearOut) hready).trans hn.symm
  obtain ⟨hdisplay, hmeters⟩ := s.clearOut.continued_frame [b1, b2, b3]
  refine ⟨_, exec_of_ready (i := .sxCont b1 b2 b3) rfl hready, hdisplay, hmeters, s.clearOut.continued_host _, ?_⟩
  obtain ⟨⟨hcfg, -, -⟩, hout⟩ := s.clearOut.freshStart_host
  split
  case isTrue hfits =>
    have hfits' : s.clearOut.freshStart.len + [b1, b2, b3].length ≤ s.clearOut.freshStart.cfg.cap := by
      rw [hstart, hcfg]
      exact hfits
    have hread := s.clearOut.freshStart.stored_buf_read? [b1, b2, b3]
    have hlen := State.stored_len (s := s.clearOut.freshStart) (hcfg ▸ hready.1) hfits'
    rw [hstart] at hread hlen
    rw [effect, State.continued_of_fits (hcfg ▸ hfits')]
    have hbyte : ∀ k, (s.clearOut.freshStart.stored [b1, b2, b3]).buf.read? (n + k) = [b1, b2, b3][k]? := fun k => by
      rw [hread, if_neg (by omega), Nat.add_sub_cancel_left]
    refine ⟨rfl, hlen, hout, hbyte 0, hbyte 1, hbyte 2, fun a ha => ?_, fun hinv a ha => ?_⟩
    · rw [State.setFraming_buf, hread, if_pos ha]
      exact State.freshStart_buf_read? (s := s.clearOut) (hstart.symm ▸ ha)
    · -- under the invariant no byte at or above LEN is listed before, and none above the fragment after
      obtain ⟨-, hidle, -, hlists⟩ := hinv
      have hle : s.len ≤ n := by
        split at hn
        · next h => rw [hidle h]; omega
        · exact hn.ge
      have hbefore : s.buf.read? a = none := Option.not_isSome_iff_eq_none.1 fun h => by
        have := (Memory.ListsBelow.isSome_read?_iff hlists a).1 h
        omega
      rw [State.setFraming_buf, hread, if_neg (by omega), hbefore, List.getElem?_eq_none]
      simp only [List.length_cons, List.length_nil]
      omega
  case isFalse hover =>
    have hover' : s.clearOut.cfg.cap < s.clearOut.freshStart.len + [b1, b2, b3].length := by
      rw [hstart]
      exact Nat.not_le.1 hover
    rw [effect, State.continued_of_overflow hover']
    obtain ⟨hidle, hlen⟩ := s.clearOut.overflowed_rearmed
    exact ⟨hidle, hlen, rfl⟩

/-- Settles O18: the terminal form completes the accumulated bytes followed by its own, and completion drives the record
and re-arms. -/
theorem terminalFragmentCompletesTheMessage : Obligations.TerminalFragmentCompletesTheMessage := by
  intro i bs s hi hready hfits
  have hlength : (s.message ++ bs).length = s.len + bs.length := by simp [State.message]
  have heffect : effect i s.clearOut = (s.clearOut.terminated bs).completed (s.message ++ bs) :=
    (effect_of_terminalBytes hi _).trans (State.ended_of_fits (s := s.clearOut) hready.1 hfits)
  obtain ⟨⟨hidle, hlen⟩, -, hmeters, hhost⟩ := (s.clearOut.terminated bs).completed_frame (s.message ++ bs)
  obtain ⟨c, w, hout, hc⟩ := State.completed_out (s := s.clearOut.terminated bs) (m := s.message ++ bs) hready.1
    (hlength ▸ hfits)
  refine ⟨_, _, (exec_of_ready (wellFormed_of_terminalBytes hi) hready).trans (congrArg _ heffect), hidle, hlen,
    hmeters, hhost, hout, rfl, hlength, rfl, rfl, hc⟩

/-- Settles O19: in Idle nothing is accumulated, so the completed message is the fragment's own bytes. -/
theorem terminalFragmentInIdleIsItsOwnMessage : Obligations.TerminalFragmentInIdleIsItsOwnMessage := by
  intro i bs s hi ⟨hready, ⟨_, hempty, _, _⟩, _, _⟩ hidle hcap
  have hlen : s.len = 0 := hempty hidle
  have hmessage : s.message = [] := by simp [State.message, hlen, Memory.readList]
  obtain ⟨t, o, hexec, hframing, hlen', -, -, hout, hvalid, -, hmsg, -, hcond⟩ :=
    terminalFragmentCompletesTheMessage i bs s hi hready (by omega)
  refine ⟨t, o, hexec, hframing, hlen', hout, hvalid, by simpa [hmessage] using hmsg, fun hover => ?_⟩
  simp [hover] at hcond

end Sys2Proof.Proofs

/-! SUPPORT. The invariant of the block between transactions (10_state.md, 42_peak_meter.md section 3), register group
by register group, and the writes to TEXT (41_display_decoder.md section 3). -/

namespace Sys2Proof.Machine

/-! ### TEXT (R25, R106) -/

/-- The display decoder's writes stay inside the listed cells of TEXT. -/
theorem State.displayed_lists {s : State} {n off : Nat} {pay : List Byte} (hn : n = s.cfg.textSize)
    (h : s.text.ListsBelow n) : (s.displayed off pay).text.ListsBelow n := by
  have hbound := writtenCount_le s.cfg off pay.length
  refine Memory.lists_overwrite _ h ?_
  simp only [List.length_take, writtenCount]
  omega

/-- What holds of TEXT and of TEXT with any payload displayed holds after `Decode`. -/
theorem State.decoded_text_induction {P : Memory → Prop} {m : List Byte} {s : State} (hsame : P s.text)
    (hdisplayed : ∀ off pay, P (s.displayed off pay).text) : P (s.decoded m).text := by
  obtain h | h | ⟨off, pay, h⟩ := s.decoded_cases m <;> rw [h]
  · exact hsame
  · exact hsame
  · exact hdisplayed off pay

/-- What holds of TEXT and of TEXT with any payload displayed holds after every transaction but RESET. -/
theorem effect_text_induction {P : Memory → Prop} {i : Instr} {s : State} (hi : i ≠ .reset) (hsame : P s.text)
    (hdisplayed : ∀ u off pay, u.cfg = s.cfg → u.text = s.text → P (State.displayed off pay u).text) :
    P (effect i s).text := by
  have hended : ∀ bs, P (s.ended bs).text := by
    intro bs
    simp only [State.ended]
    split
    · exact State.decoded_text_induction (P := P) hsame fun off pay => hdisplayed _ off pay rfl rfl
    · exact hsame
  cases i with
  | sxCont b1 b2 b3 =>
    obtain ⟨⟨htext, -⟩, -⟩ := s.continued_frame [b1, b2, b3]
    exact htext.symm ▸ hsame
  | sxEnd1 | sxEnd2 | sxEnd3 => exact hended _
  | reset => exact absurd rfl hi
  | _ => exact hsame

/-- No transaction but RESET writes a cell at or above TEXT_SIZE (R106). -/
theorem effect_text_read?_of_ge {i : Instr} {s : State} {a : Nat} (hi : i ≠ .reset) (ha : s.cfg.textSize ≤ a) :
    (effect i s).text.read? a = s.text.read? a := by
  refine effect_text_induction (P := fun m => m.read? a = s.text.read? a) hi rfl fun u off pay hcfg htext => ?_
  rw [State.displayed_read?, htext, if_neg]
  simp only [writtenCount, hcfg]
  omega

/-- Every transaction keeps TEXT listing exactly its cells. -/
theorem effect_text_lists {s : State} (h : s.text.ListsBelow s.cfg.textSize) (i : Instr) :
    (effect i s).text.ListsBelow s.cfg.textSize := by
  by_cases hi : i = .reset
  · subst hi
    exact resetText_lists _ _
  · exact effect_text_induction (P := fun m => m.ListsBelow s.cfg.textSize) hi h fun u off pay hcfg htext =>
      State.displayed_lists (by rw [hcfg]) (htext.symm ▸ h)

/-! ### The reassembler (R22 to R24) -/

/-- A state that was re-armed with nothing listed of BUF satisfies the reassembler's invariant. -/
theorem State.reassemblerInv_of_rearmed {s : State} (h : s.Rearmed) (hbuf : s.buf = []) : s.ReassemblerInv := by
  obtain ⟨hidle, hlen⟩ := h
  simp [State.ReassemblerInv, Memory.ListsBelow, hidle, hlen, hbuf]

/-- Under the invariant a start fragment changes no register: in Idle the buffer is empty already. -/
theorem State.freshStart_of_inv {s : State} (hready : s.Ready) (h : s.ReassemblerInv) :
    s.freshStart.len = s.len ∧ s.freshStart.buf = s.buf := by
  obtain ⟨-, hempty, -, hlists⟩ := h
  rw [State.freshStart_len_of_ready hready]
  by_cases hidle : s.framing = .idle
  · have hbuf : s.buf = [] := by simpa [Memory.ListsBelow, hempty hidle] using hlists
    simp [State.freshStart, hidle, hempty hidle, hbuf]
  · obtain ⟨-, hidle' | hacc⟩ := hready
    · exact absurd hidle' hidle
    · simp [State.freshStart, hacc]

/-- SX_CONT keeps the reassembler's invariant (R24). -/
theorem State.continued_inv {s : State} {bs : List Byte} (hbs : bs.length = 3) (hready : s.Ready)
    (h : s.ReassemblerInv) : (s.continued bs).ReassemblerInv := by
  obtain ⟨hlen, hbuf⟩ := State.freshStart_of_inv hready h
  obtain ⟨-, hempty, hmultiple, hlists⟩ := h
  obtain hfits | hover := le_or_gt (s.freshStart.len + bs.length) s.cfg.cap
  · rw [State.continued_of_fits hfits]
    have hlen' : (s.freshStart.stored bs).len = s.len + bs.length :=
      hlen ▸ State.stored_len (s.freshStart_cfg.symm ▸ hready.1) (s.freshStart_cfg.symm ▸ hfits)
    have hlists' : (s.freshStart.stored bs).buf.ListsBelow (s.len + bs.length) := by
      rw [← hlen]
      exact State.stored_lists (by rw [Memory.ListsBelow, hbuf, hlen, hlists]) bs
    refine ⟨?_, by simp, fun _ => ?_, ?_⟩
    · rw [State.setFraming_len, hlen', ← hlen]
      exact s.freshStart_cfg.symm ▸ hfits
    · rw [State.setFraming_len, hlen', hbs]
      obtain hidle | hacc := hready.2
      · have := hempty hidle
        omega
      · have := hmultiple hacc
        omega
    · rw [State.setFraming_len, State.setFraming_buf, hlen']
      exact hlists'
  · rw [State.continued_of_overflow hover]
    exact State.reassemblerInv_of_rearmed s.overflowed_rearmed (Memory.truncate_zero _)

/-- Every transaction keeps the reassembler's invariant. -/
theorem effect_reassemblerInv {i : Instr} {s : State} (hready : s.Ready) (h : s.ReassemblerInv) :
    (effect i s).ReassemblerInv := by
  have hended : ∀ bs, (s.ended bs).ReassemblerInv := fun bs =>
    State.reassemblerInv_of_rearmed (s.ended_rearmed bs).1 (s.ended_rearmed bs).2
  cases i with
  | sxCont b1 b2 b3 => exact State.continued_inv rfl hready h
  | sxEnd1 | sxEnd2 | sxEnd3 => exact hended _
  | reset => exact State.reassemblerInv_of_rearmed ⟨rfl, rfl⟩ rfl
  | _ => exact h

/-! ### The meters (R129) -/

/-- What R7 says of the parameters of a meter. -/
theorem Params.meter_of_valid {c : Params} (h : c.valid = true) : 1 ≤ c.levelMax ∧ c.levelMax ≤ 15 ∧
    1 ≤ c.decayStep ∧ 1 ≤ c.decayWidth ∧ c.barWidth + 2 * c.decayStep ≤ 2 ^ (c.decayWidth - 1) := by
  simp only [Params.valid, decide_eq_true_eq] at h
  obtain ⟨-, -, -, -, hmax, hmax', hwidth, hstep, hfits, -⟩ := h
  refine ⟨hmax, hmax', hstep, Nat.one_le_iff_ne_zero.2 fun hzero => ?_, hfits⟩
  rw [hzero] at hfits
  simp only [Nat.zero_sub, Nat.pow_zero] at hfits
  omega

/-- A clamped level is at most LEVEL_MAX (R123). -/
theorem clampLevel_toNat {c : Params} (h : c.levelMax ≤ 15) (l : BitVec 4) :
    (clampLevel c l).toNat = min l.toNat c.levelMax := by
  simp only [clampLevel]
  split
  · rw [BitVec.toNat_ofNat, Nat.mod_eq_of_lt (by omega)]
    omega
  · omega

/-- The undecayed extent is at most the width of the bar (R124). -/
theorem baseExtent_clampLevel_le {c : Params} (h : c.valid = true) (l : BitVec 4) :
    baseExtent c (clampLevel c l) ≤ c.barWidth := by
  obtain ⟨hmax, hmax', -⟩ := Params.meter_of_valid h
  rw [baseExtent, clampLevel_toNat hmax']
  calc min l.toNat c.levelMax * c.barWidth / c.levelMax
      ≤ c.levelMax * c.barWidth / c.levelMax := Nat.div_le_div_right (Nat.mul_le_mul_right _ (Nat.min_le_right _ _))
    _ = c.barWidth := Nat.mul_div_cancel_left _ hmax

/-- A DECAY register in range is a number of steps below 0, at most two more than fit the bar, and at most one more
while the level is not 0 (R129). -/
theorem decayInRange_iff {c : Params} (hstep : 1 ≤ c.decayStep) {l : BitVec 4} {d : Int} :
    DecayInRange c l d ↔ ∃ j : Nat, d = -((c.decayStep * j : Nat) : Int) ∧ j ≤ c.barWidth / c.decayStep + 2 ∧
      (l ≠ 0 → j ≤ c.barWidth / c.decayStep + 1) := by
  have hcancel : ∀ j n : Nat, -((c.decayStep * n : Nat) : Int) ≤ -((c.decayStep * j : Nat) : Int) ↔ j ≤ n := by
    intro j n
    rw [neg_le_neg_iff, Int.ofNat_le]
    exact Nat.mul_le_mul_left_iff hstep
  constructor
  · rintro ⟨hneg, ⟨q, hq⟩, hbound, hlit⟩
    obtain ⟨j, rfl⟩ : ∃ j : Nat, d = -((c.decayStep * j : Nat) : Int) := by
      have hq0 : q ≤ 0 := by
        by_contra hpos
        have : 0 < (c.decayStep : Int) * q := Int.mul_pos (by omega) (by omega)
        omega
      exact ⟨q.natAbs, by push_cast; rw [hq, abs_of_nonpos hq0]; ring⟩
    exact ⟨j, rfl, (hcancel j _).1 hbound, fun hl => (hcancel j _).1 (hlit hl)⟩
  · rintro ⟨j, rfl, hbound, hlit⟩
    exact ⟨by omega, ⟨-(j : Int), by push_cast; ring⟩, (hcancel j _).2 hbound, fun hl => (hcancel j _).2 (hlit hl)⟩

/-- One more step below 0 fits the register while the steps so far are at most one more than fit the bar (R10, R129). -/
theorem toDecay_decayedOnce {c : Params} (h : c.valid = true) {j : Nat}
    (hj : c.decayStep * j ≤ c.barWidth + c.decayStep) :
    c.toDecay (decayedOnce c (-((c.decayStep * j : Nat) : Int))) = -((c.decayStep * (j + 1) : Nat) : Int) := by
  obtain ⟨-, -, hstep, hwidth, hfits⟩ := Params.meter_of_valid h
  have hpow : ((2 ^ (c.decayWidth - 1) : Nat) : Int) = 2 ^ (c.decayWidth - 1) := by push_cast; rfl
  have hnext : decayedOnce c (-((c.decayStep * j : Nat) : Int)) = -((c.decayStep * (j + 1) : Nat) : Int) := by
    rw [decayedOnce, Nat.mul_succ]
    omega
  rw [hnext, Nat.mul_succ]
  exact Params.toDecay_of_fits hwidth (by omega) (by omega)

/-- RENDER keeps its channel's DECAY in range: a level that is not exhausted has at most as many steps behind it as fit
the bar (R126, R129). -/
theorem decayInRange_render {c : Params} (hvalid : c.valid = true) {l : BitVec 4} {d : Int}
    (h : DecayInRange c l d) : DecayInRange c (renderLevel c l d) (renderDecay c l d) := by
  obtain ⟨-, -, hstep, -, -⟩ := Params.meter_of_valid hvalid
  by_cases hl : l = 0
  · simpa [renderLevel, renderDecay, hl] using h
  · rw [decayInRange_iff hstep] at h ⊢
    obtain ⟨j, rfl, -, hlit⟩ := h
    have hj : j ≤ c.barWidth / c.decayStep + 1 := hlit hl
    have hmul : c.decayStep * j ≤ c.barWidth + c.decayStep := by
      have := Nat.mul_div_le c.barWidth c.decayStep
      have := Nat.mul_le_mul_left c.decayStep hj
      rw [Nat.mul_succ] at this
      omega
    refine ⟨j + 1, by rw [renderDecay, if_neg hl, toDecay_decayedOnce hvalid hmul], by omega, fun hlevel => ?_⟩
    -- the bar is not exhausted, so the steps so far fit its undecayed extent
    have hextent : ¬ renderExtent c l (-((c.decayStep * j : Nat) : Int)) < 0 := fun hneg =>
      hlevel (if_pos (.inr hneg))
    have hbase := baseExtent_clampLevel_le hvalid l
    rw [renderExtent, extent] at hextent
    have hbar : c.decayStep * j ≤ c.barWidth := by omega
    have : j ≤ c.barWidth / c.decayStep := (Nat.le_div_iff_mul_le hstep).2 (Nat.mul_comm j _ ▸ hbar)
    omega

/-- A channel whose decay has restarted is in range at any level (R120, R170). -/
theorem decayInRange_zero (c : Params) (l : BitVec 4) : DecayInRange c l 0 :=
  ⟨Int.le_refl 0, Int.dvd_zero _, by omega, fun _ => by omega⟩

/-- Writing one meter in range keeps the meters' invariant. -/
theorem State.withMeter_inv {s : State} (h : s.MeterInv) {ch : BitVec 3} {l : BitVec 4} {d : Int}
    (hd : DecayInRange s.cfg l d) : (s.withMeter ch l d).MeterInv := by
  intro c
  rw [State.withMeter_levelOf, State.withMeter_decayOf]
  by_cases hc : c = ch
  · rw [if_pos hc, if_pos hc]
    exact hd
  · rw [if_neg hc, if_neg hc]
    exact h c

/-- The meters' invariant reads the configuration and the meters only. -/
theorem State.meterInv_of_same {s t : State} (hcfg : t.cfg = s.cfg) (hmeters : SameMeters s t) (h : s.MeterInv) :
    t.MeterInv := by
  intro c
  obtain ⟨hlevel, hdecay⟩ := State.channel_of_sameMeters hmeters c
  rw [hcfg, hlevel, hdecay]
  exact h c

/-- The reset of R170 establishes the meters' invariant. -/
theorem State.applyReset_meterInv (s : State) : s.applyReset.MeterInv := by
  intro c
  obtain ⟨-, hdecay⟩ := s.applyReset_channel c
  rw [hdecay]
  exact decayInRange_zero _ _

/-- Every transaction keeps the meters' invariant. -/
theorem effect_meterInv {i : Instr} {s : State} (hready : s.Ready) (h : s.MeterInv) : (effect i s).MeterInv := by
  have hended : ∀ bs, (s.ended bs).MeterInv := fun bs =>
    State.meterInv_of_same (s.ended_host bs).1 (s.ended_meters bs) h
  cases i with
  | sxCont b1 b2 b3 => exact State.meterInv_of_same (s.continued_host _).1 (s.continued_frame _).2 h
  | sxEnd1 | sxEnd2 | sxEnd3 => exact hended _
  | pressure b2 => exact State.withMeter_inv h (decayInRange_zero _ _)
  | render ch => exact State.withMeter_inv h (decayInRange_render hready.1 (h ch))
  | reset => exact s.applyReset_meterInv
  | _ => exact h

/-! ### The whole invariant -/

/-- Every well-formed transaction keeps the invariant. -/
theorem effect_inv {i : Instr} {s : State} (hi : WellFormed i = true) (h : s.Inv) : (effect i s.clearOut).Inv := by
  obtain ⟨hready, hreassembler, htext, hmeter⟩ := h
  refine ⟨effect_ready hi hready, effect_reassemblerInv hready hreassembler, ?_, effect_meterInv hready hmeter⟩
  obtain ⟨hcfg, -, -⟩ := effect_host i s.clearOut
  rw [hcfg]
  exact effect_text_lists (s := s.clearOut) htext i

/-- The reset of R170 establishes the invariant in every valid configuration. -/
theorem State.applyReset_inv {s : State} (hvalid : s.cfg.valid = true) : s.applyReset.Inv :=
  ⟨⟨hvalid, .inl rfl⟩, State.reassemblerInv_of_rearmed ⟨rfl, rfl⟩ rfl, resetText_lists _ _, s.applyReset_meterInv⟩

/-- The reference configuration gives TEXT the same reset contents at every draw: TEXT_INIT has a byte for each cell. -/
theorem resetText_reference (d d' : Nat) : resetText Params.reference d = resetText Params.reference d' := by
  refine List.map_congr_left fun a ha => ?_
  have hbyte := (textInit_reference_isSome_iff a).2 (List.mem_range.1 ha)
  obtain ⟨b, hb⟩ := Option.isSome_iff_exists.1 hbyte
  simp only [List.getD_eq_getElem?_getD, hb, Option.getD_some]

end Sys2Proof.Machine

namespace Sys2Proof.Proofs

open Sys2Proof.Machine

/-- Settles O27: every byte of TEXT that `Decode` writes is below TEXT_SIZE, and beside it only RESET writes TEXT. -/
theorem nothingBeyondTheTextBufferIsWritten : Obligations.NothingBeyondTheTextBufferIsWritten := by
  intro i s t a hexec ha hi
  obtain ⟨-, -, rfl⟩ := exec_next_iff.1 hexec
  exact effect_text_read?_of_ge (s := s.clearOut) hi ha

/-- Settles O42: an idle step changes the record only, and the effect of an accepted transaction keeps the invariant,
group by group. -/
theorem everyStepKeepsTheInvariant : Obligations.EveryStepKeepsTheInvariant := by
  intro s t hinv hstep
  cases hp : s.pending with
  | nil =>
    rw [step_of_pending_nil hp] at hstep
    obtain ⟨-, rfl⟩ := idle_next_iff.1 hstep
    exact hinv
  | cons w rest =>
    rw [step_of_pending_cons hp] at hstep
    obtain ⟨hi, -, rfl⟩ := exec_next_iff.1 hstep
    exact effect_inv (s := s.accepted rest) hi hinv

/-- Settles O39: RESET applies the reset of R170, which leaves nothing of the state but the model's own fields. -/
theorem resetTransactionIsThePowerOnReset : Obligations.ResetTransactionIsThePowerOnReset := by
  intro s hready hcfg
  rw [exec_reset_of_ready hready]
  refine congrArg _ (State.ext_fields hcfg rfl rfl rfl ?_ rfl rfl rfl rfl rfl rfl)
  rw [State.applyReset_text, State.clearOut_cfg, hcfg]
  exact resetText_reference _ _

/-- Settles O43: the power-on state is one that the reset of R170 leaves as it is, in a valid configuration. -/
theorem powerOnResetSatisfiesTheInvariant : Obligations.PowerOnResetSatisfiesTheInvariant :=
  State.applyReset_inv (s := State.reset) (by decide)

end Sys2Proof.Proofs

/-! SUPPORT. The bar of a peak meter (42_peak_meter.md section 2): how many of its columns are lit, and what RENDER
reads and writes beside its own channel's registers. -/

namespace Sys2Proof.Machine

/-! ### The bar (R127) -/

/-- One more column adds a lit one where its index is even and below the extent. -/
theorem countP_columnLit (e w : Nat) : (List.range w).countP (columnLit (e : Int)) = (min e w + 1) / 2 := by
  induction w with
  | zero => simp
  | succ w ih =>
    rw [List.range_succ, List.countP_append, ih, List.countP_singleton]
    by_cases hlit : columnLit (e : Int) w = true
    · rw [if_pos hlit]
      simp only [columnLit, Bool.and_eq_true, decide_eq_true_eq] at hlit
      omega
    · rw [if_neg hlit]
      simp only [columnLit, Bool.and_eq_true, decide_eq_true_eq, not_and] at hlit
      omega

/-- Column `i` of a bar of a clipped extent: the border, with the fill byte where `i` is below the extent and even. -/
theorem bar_getElem? {c : Params} {i : Nat} (hi : i < c.barWidth) (e : Int) : (bar c (max e 0))[i]? =
    some (c.borderByte ||| (if (i : Int) < e ∧ i % 2 = 0 then c.fillByte else 0)) := by
  have hclip : (i : Int) < max e 0 ↔ (i : Int) < e := by omega
  simp [bar, hi, column, columnLit, hclip]

/-- A bar of extent 0 or less is the empty bar. -/
theorem bar_of_nonpos {c : Params} {e : Int} (he : e ≤ 0) : bar c e = emptyBar c := by
  have hdark : ∀ i : Nat, columnLit e i = false := fun i => by
    simp only [columnLit, Bool.and_eq_false_iff, decide_eq_false_iff_not]
    omega
  refine List.eq_replicate_iff.2 ⟨by simp [bar], fun b hb => ?_⟩
  obtain ⟨i, -, rfl⟩ := List.mem_map.1 hb
  simp [column, hdark]

/-! ### What RENDER does (R121, R130, R131) -/

/-- In a ready state RENDER is done and ends in its effect. -/
theorem exec_render_of_ready {s : State} (h : s.Ready) (ch : BitVec 3) :
    exec (.render ch) s = .next (s.clearOut.rendered ch) := exec_of_ready rfl h

/-- RENDER leaves every other channel. -/
theorem State.rendered_other {ch c : BitVec 3} (hc : c ≠ ch) (s : State) :
    (s.rendered ch).levelOf c = s.levelOf c ∧ (s.rendered ch).decayOf c = s.decayOf c := by
  obtain ⟨-, -, hother⟩ := renderBody_frame (renderBody_eq_rendered ch s)
  exact hother c hc

/-- RENDER gives its channel the level of one more render. -/
theorem State.rendered_levelOf (ch : BitVec 3) (s : State) :
    (s.rendered ch).levelOf ch = renderLevel s.cfg (s.levelOf ch) (s.decayOf ch) := by
  rw [State.rendered, State.levelOf_congr (State.driveCols_level _ _), State.withMeter_levelOf, if_pos rfl]

/-- RENDER gives its channel the decay of one more render. -/
theorem State.rendered_decayOf (ch : BitVec 3) (s : State) :
    (s.rendered ch).decayOf ch = renderDecay s.cfg (s.levelOf ch) (s.decayOf ch) := by
  rw [State.rendered, State.decayOf_congr (State.driveCols_decay _ _), State.withMeter_decayOf, if_pos rfl]

/-- RENDER after that of another channel reads what it would have read before. -/
theorem State.rendered_after {a b : BitVec 3} (h : b ≠ a) (s : State) :
    (s.rendered a).clearOut.rendered b =
      ((s.rendered a).clearOut.withMeter b (renderLevel s.cfg (s.levelOf b) (s.decayOf b))
        (renderDecay s.cfg (s.levelOf b) (s.decayOf b))).driveCols
          (renderCols s.cfg (s.levelOf b) (s.decayOf b)) := by
  obtain ⟨hlevel, hdecay⟩ := s.rendered_other h
  have hlevel' : (s.rendered a).clearOut.levelOf b = s.levelOf b := hlevel
  have hdecay' : (s.rendered a).clearOut.decayOf b = s.decayOf b := hdecay
  have hcfg : (s.rendered a).clearOut.cfg = s.cfg := rfl
  rw [State.rendered, hlevel', hdecay', hcfg]

end Sys2Proof.Machine

namespace Sys2Proof.Proofs

open Sys2Proof.Machine

/-- Settles O32, from the count over any width. -/
theorem halfTheExtentIsLit : Obligations.HalfTheExtentIsLit := by
  intro w e he
  rw [countP_columnLit, Nat.min_eq_left he]

/-- Settles O31: the effect of RENDER on a channel that is not empty, register by register and column by column. -/
theorem renderAdvancesTheMeter : Obligations.RenderAdvancesTheMeter := by
  intro ch s L e hready hlevel hL he
  obtain ⟨-, hmax, -, hwidth, -⟩ := Params.meter_of_valid hready.1
  have hclamp : (clampLevel s.cfg (s.levelOf ch)).toNat = L := (clampLevel_toNat hmax _).trans hL.symm
  have hextent : renderExtent s.cfg (s.levelOf ch) (s.decayOf ch) = e := by
    rw [renderExtent, extent, baseExtent, hclamp, he]
  refine ⟨_, _, exec_render_of_ready hready ch, rfl, ⟨rfl, rfl, rfl⟩, ⟨rfl, rfl⟩, ⟨rfl, rfl, rfl⟩, ?level, ?decay,
    fun c hc => s.clearOut.rendered_other hc, ?length, fun i hi => ?column⟩
  case level =>
    rw [State.rendered_levelOf]
    change (renderLevel s.cfg (s.levelOf ch) (s.decayOf ch)).toNat = _
    rw [renderLevel, hextent]
    by_cases hneg : e < 0
    · rw [if_pos (.inr hneg), if_pos hneg]
      rfl
    · rw [if_neg (not_or.2 ⟨hlevel, hneg⟩), if_neg hneg, hclamp]
  case decay =>
    intro hlo hhi
    rw [State.rendered_decayOf]
    exact (if_neg hlevel).trans (Params.toDecay_of_fits hwidth hlo hhi)
  case length =>
    change (renderCols s.cfg (s.levelOf ch) (s.decayOf ch)).length = _
    rw [renderCols, if_neg hlevel]
    simp [bar]
  case column =>
    change (renderCols s.cfg (s.levelOf ch) (s.decayOf ch))[i]? = _
    rw [renderCols, if_neg hlevel, hextent, bar_getElem? hi]

/-- Settles O34: each RENDER reads and writes its own channel's meter, and the record is its own. -/
theorem rendersOfTwoChannelsCommute : Obligations.RendersOfTwoChannelsCommute := by
  intro a b s hab hready
  have hready' : ∀ ch, (s.clearOut.rendered ch).Ready := fun ch => effect_ready (i := .render ch) rfl hready
  refine ⟨_, _, _, _, exec_render_of_ready hready a, exec_render_of_ready (hready' a) b,
    exec_render_of_ready hready b, exec_render_of_ready (hready' b) a, ?_⟩
  rw [State.rendered_after hab.symm, State.rendered_after hab]
  have hmeters := State.withMeter_comm hab (renderLevel s.cfg (s.levelOf a) (s.decayOf a))
    (renderLevel s.cfg (s.levelOf b) (s.decayOf b)) (renderDecay s.cfg (s.levelOf a) (s.decayOf a))
    (renderDecay s.cfg (s.levelOf b) (s.decayOf b)) s
  have hlevel := congrArg State.level hmeters
  have hdecay := congrArg State.decay hmeters
  exact ⟨State.ext_fields rfl rfl rfl rfl rfl hlevel hdecay rfl rfl rfl rfl, rfl, rfl⟩

/-- Settles O36: RENDER's effect writes one meter and the record, from the configuration and that meter. -/
theorem renderNeitherReadsNorWritesDirty : Obligations.RenderNeitherReadsNorWritesDirty := by
  intro ch s t d hexec
  obtain ⟨-, hready, rfl⟩ := exec_next_iff.1 hexec
  exact ⟨rfl, exec_render_of_ready (s := { s with dirty := d }) hready ch⟩

end Sys2Proof.Proofs

/-! SUPPORT. RENDER_POLICY (00_scope.md section 4, 42_peak_meter.md section 3): every effect is the same under any other
policy, because no operation reads that parameter. -/

namespace Sys2Proof.Machine

/-- The state with another render policy. -/
def State.withPolicy (p : RenderPolicy) (s : State) : State :=
  { s with cfg := { s.cfg with renderPolicy := p } }

/-- The start of a fragment does not read the policy. -/
theorem State.freshStart_withPolicy (p : RenderPolicy) (s : State) :
    (s.withPolicy p).freshStart = s.freshStart.withPolicy p := by
  have hframing : (s.withPolicy p).framing = s.framing := rfl
  simp only [State.freshStart, hframing]
  split <;> rfl

/-- SX_CONT does not read the policy. -/
theorem State.continued_withPolicy (p : RenderPolicy) (bs : List Byte) (s : State) :
    (s.withPolicy p).continued bs = (s.continued bs).withPolicy p := by
  have hlen : (s.withPolicy p).freshStart.len = s.freshStart.len := by rw [State.freshStart_withPolicy]; rfl
  obtain hfits | hover := le_or_gt (s.freshStart.len + bs.length) s.cfg.cap
  · rw [State.continued_of_fits hfits, State.continued_of_fits (hlen.symm ▸ hfits), State.freshStart_withPolicy]
    rfl
  · rw [State.continued_of_overflow hover, State.continued_of_overflow (hlen.symm ▸ hover)]
    rfl

/-- `Decode` does not read the policy. -/
theorem State.decoded_withPolicy (p : RenderPolicy) (m : List Byte) (s : State) :
    (s.withPolicy p).decoded m = (s.decoded m).withPolicy p := by
  have hpredicate : displayPredicate (s.withPolicy p).cfg m = displayPredicate s.cfg m := rfl
  have hlength : payloadLength? (s.withPolicy p).cfg m = payloadLength? s.cfg m := rfl
  simp only [State.decoded, hpredicate, hlength]
  split
  · cases payloadLength? s.cfg m <;> rfl
  · rfl

/-- A terminal fragment does not read the policy. -/
theorem State.ended_withPolicy (p : RenderPolicy) (bs : List Byte) (s : State) :
    (s.withPolicy p).ended bs = (s.ended bs).withPolicy p := by
  obtain hfits | hover := le_or_gt (s.len + bs.length) s.cfg.cap
  · have hdecoded := State.decoded_withPolicy p (s.terminated bs).message
      ((s.terminated bs).driveMessage (s.terminated bs).message)
    have hfits' : (s.withPolicy p).len + bs.length ≤ (s.withPolicy p).cfg.cap := hfits
    rw [State.ended, State.ended, if_pos hfits, if_pos hfits']
    exact congrArg (fun u => (u.setLen 0).setFraming .idle) hdecoded
  · have hover' : (s.withPolicy p).cfg.cap < (s.withPolicy p).len + bs.length := hover
    rw [State.ended_of_overflow hover, State.ended_of_overflow hover']
    rfl

/-- No transaction reads the policy. -/
theorem effect_withPolicy (i : Instr) (p : RenderPolicy) (s : State) :
    effect i (s.withPolicy p) = (effect i s).withPolicy p := by
  cases i with
  | sxCont b1 b2 b3 => exact s.continued_withPolicy p _
  | sxEnd1 | sxEnd2 | sxEnd3 => exact s.ended_withPolicy p _
  | _ => rfl

end Sys2Proof.Machine

namespace Sys2Proof.Proofs

open Sys2Proof.Machine

/-- Settles O41: validity reads every parameter but the policy, and no effect reads it. -/
theorem renderPolicyIsNeverRead : Obligations.RenderPolicyIsNeverRead := by
  intro i s t p hexec
  obtain ⟨hi, hready, rfl⟩ := exec_next_iff.1 hexec
  have hready' : (s.withPolicy p).Ready := hready
  exact (exec_of_ready hi hready').trans (congrArg _ (effect_withPolicy i p s.clearOut))

end Sys2Proof.Proofs

/-! SUPPORT. Runs of a queue of words (00_scope.md section 5, 42_peak_meter.md section 3): a run accepts word by word,
and two runs of which one leaves out some of the words stay related where every word keeps the relation. -/

namespace Sys2Proof.Machine

/-! ### One word after the other (R11, R50) -/

/-- Where the transaction of the word `w` ends, with the words `rest` still waiting. -/
def State.ran (w : TransWord) (rest : List TransWord) (s : State) : State :=
  effect (decode w) (s.accepted rest).clearOut

/-- A run of no word. -/
theorem runWords_nil (s : State) : runWords [] s = .next { s with pending := [] } := rfl

/-- A run from a ready state accepts its first word and goes on from where the word's transaction ends. -/
theorem runWords_cons {w : TransWord} {q : List TransWord} {s : State} (hw : WellFormed (decode w) = true)
    (h : s.Ready) : runWords (w :: q) s = runWords q (s.ran w q) := by
  have hstep : step { s with pending := w :: q } = .next (s.ran w q) :=
    (step_of_pending_cons rfl).trans (exec_of_ready (s := s.accepted q) hw h)
  obtain ⟨-, hpending, -⟩ := effect_host (decode w) (s.accepted q).clearOut
  have hwaiting : { s.ran w q with pending := q } = s.ran w q :=
    State.ext_fields rfl rfl rfl rfl rfl rfl rfl rfl rfl hpending.symm rfl
  have hrun : runWords (w :: q) s = runSteps q.length (s.ran w q) := by
    simp only [runWords, runSteps, List.length_cons, Host.Core.run, Sys2Proof.core, hstep]
  rw [hrun, runWords, hwaiting]

/-- A well-formed word leaves the block ready. -/
theorem State.ran_ready {w : TransWord} {rest : List TransWord} {s : State} (hw : WellFormed (decode w) = true)
    (h : s.Ready) : (s.ran w rest).Ready := effect_ready (s := s.accepted rest) hw h

/-- A relation between two states that every kept word keeps in both runs, and every other word in the first run alone,
holds between the ends of a run of a queue and of the run of its kept words. -/
theorem runWords_filter {R : State → State → Prop} {keep : TransWord → Bool} {q : List TransWord}
    (hq : ∀ w ∈ q, WellFormed (decode w) = true)
    (hready : ∀ s u, R s u → s.Ready ∧ u.Ready)
    (hnil : ∀ s u, R s u → R { s with pending := [] } { u with pending := [] })
    (hkept : ∀ w ∈ q, keep w = true → ∀ s u rest rest', R s u → R (s.ran w rest) (u.ran w rest'))
    (hdropped : ∀ w ∈ q, keep w = false → ∀ s u rest, R s u → R (s.ran w rest) u)
    {s u : State} (h : R s u) :
    ∃ t v, runWords q s = .next t ∧ runWords (q.filter keep) u = .next v ∧ R t v := by
  induction q generalizing s u with
  | nil => exact ⟨_, _, runWords_nil s, runWords_nil u, hnil s u h⟩
  | cons w q ih =>
    have hw := hq w List.mem_cons_self
    have ih := fun {s u} => ih (fun x hx => hq x (List.mem_cons_of_mem _ hx))
      (fun x hx => hkept x (List.mem_cons_of_mem _ hx)) (fun x hx => hdropped x (List.mem_cons_of_mem _ hx))
      (s := s) (u := u)
    obtain ⟨hs, hu⟩ := hready s u h
    rw [runWords_cons hw hs]
    cases hkeep : keep w with
    | true =>
      rw [List.filter_cons_of_pos hkeep, runWords_cons hw hu]
      exact ih (hkept w List.mem_cons_self hkeep s u _ _ h)
    | false =>
      rw [List.filter_cons_of_neg (by simp [hkeep])]
      exact ih (hdropped w List.mem_cons_self hkeep s u _ h)

/-! ### A meter after a pressure event (R128) -/

/-- The undecayed extent of a clamped level (R124). -/
def levelBase (c : Params) (L : Nat) : Nat := L * c.barWidth / c.levelMax

/-- Before the `k`-th render after a pressure event of the clamped level `L`: one step behind for each render so far,
while the bar has not been exhausted; the empty channel from then on. -/
def State.BeforeRender (ch : BitVec 3) (L k : Nat) (s : State) : Prop :=
  (s.cfg.decayStep * k ≤ levelBase s.cfg L + s.cfg.decayStep →
    min (s.levelOf ch).toNat s.cfg.levelMax = L ∧ s.decayOf ch = -((s.cfg.decayStep * k : Nat) : Int)) ∧
  (levelBase s.cfg L + s.cfg.decayStep < s.cfg.decayStep * k → s.levelOf ch = 0)

/-- After the `k`-th render after a pressure event of the clamped level `L`: the bar that has fallen by `k` steps, or
the empty bar. -/
def State.AfterRender (ch : BitVec 3) (L k : Nat) (s : State) : Prop :=
  (s.cfg.decayStep * k ≤ levelBase s.cfg L →
    (s.levelOf ch).toNat = L ∧ s.decayOf ch = -((s.cfg.decayStep * (k + 1) : Nat) : Int) ∧
      s.outNow.cols = bar s.cfg ((levelBase s.cfg L - s.cfg.decayStep * k : Nat) : Int)) ∧
  (levelBase s.cfg L < s.cfg.decayStep * k → s.levelOf ch = 0 ∧ s.outNow.cols = emptyBar s.cfg)

/-- A render ends where the next one begins. -/
theorem State.AfterRender.beforeNext {ch : BitVec 3} {L k : Nat} {s : State} (hL : L ≤ s.cfg.levelMax)
    (h : s.AfterRender ch L k) : s.BeforeRender ch L (k + 1) := by
  obtain ⟨hlit, hempty⟩ := h
  refine ⟨fun hle => ?_, fun hlt => ?_⟩ <;> rw [Nat.mul_succ] at *
  · obtain ⟨hlevel, hdecay, -⟩ := hlit (by omega)
    exact ⟨by omega, hdecay⟩
  · obtain ⟨hlevel, -⟩ := hempty (by omega)
    exact hlevel

/-- The `k`-th render, from where the one before ended. -/
theorem State.BeforeRender.rendered {ch : BitVec 3} {L k : Nat} {s : State} (hvalid : s.cfg.valid = true)
    (hL : 1 ≤ L) (h : s.BeforeRender ch L k) : (s.rendered ch).AfterRender ch L k := by
  obtain ⟨hmax, hmax', -, -, -⟩ := Params.meter_of_valid hvalid
  obtain ⟨hlit, hempty⟩ := h
  have hlevel := s.rendered_levelOf ch
  have hdecay := s.rendered_decayOf ch
  have hcols : (s.rendered ch).outNow.cols = renderCols s.cfg (s.levelOf ch) (s.decayOf ch) := rfl
  have hcfg : (s.rendered ch).cfg = s.cfg := rfl
  rw [State.AfterRender, hcfg, hlevel, hdecay, hcols]
  obtain hlive | hdead := le_or_gt (s.cfg.decayStep * k) (levelBase s.cfg L + s.cfg.decayStep)
  · obtain ⟨hclamp, hd⟩ := hlit hlive
    have hclamp' : (clampLevel s.cfg (s.levelOf ch)).toNat = L := (clampLevel_toNat hmax' _).trans hclamp
    have hbase : levelBase s.cfg L = baseExtent s.cfg (clampLevel s.cfg (s.levelOf ch)) := by
      rw [levelBase, baseExtent, hclamp']
    have hwidth : levelBase s.cfg L ≤ s.cfg.barWidth := hbase.le.trans (baseExtent_clampLevel_le hvalid _)
    have hne : s.levelOf ch ≠ 0 := fun h0 => by
      rw [h0] at hclamp
      simp at hclamp
      omega
    have hextent : renderExtent s.cfg (s.levelOf ch) (s.decayOf ch) =
        (levelBase s.cfg L : Int) - ((s.cfg.decayStep * k : Nat) : Int) := by
      rw [renderExtent, extent, ← hbase, hd]
      omega
    have hnext : renderDecay s.cfg (s.levelOf ch) (s.decayOf ch) = -((s.cfg.decayStep * (k + 1) : Nat) : Int) := by
      rw [renderDecay, if_neg hne, hd]
      exact toDecay_decayedOnce hvalid (by omega)
    rw [renderLevel, hnext, renderCols, if_neg hne, hextent]
    refine ⟨fun hle => ⟨?_, rfl, ?_⟩, fun hlt => ⟨if_pos (.inr (by omega)), bar_of_nonpos (by omega)⟩⟩
    · rw [if_neg (not_or.2 ⟨hne, by omega⟩), hclamp']
    · congr 1
      omega
  · have hzero := hempty hdead
    refine ⟨fun hle => by omega, fun _ => ⟨?_, ?_⟩⟩
    · rw [renderLevel, if_pos (.inl hzero)]
    · rw [renderCols, if_pos hzero]

/-- A word that is a RENDER ends in RENDER's effect. -/
theorem State.ran_render {w : TransWord} {ch : BitVec 3} (hw : decode w = .render ch) (rest : List TransWord)
    (s : State) : s.ran w rest = (s.accepted rest).clearOut.rendered ch := by
  rw [State.ran, hw, effect]

/-- The `k`-th render, as a word of a run. -/
theorem State.BeforeRender.ran {w : TransWord} {ch : BitVec 3} (hw : decode w = .render ch) {L k : Nat} (hL : 1 ≤ L)
    {s : State} (hready : s.Ready) (h : s.BeforeRender ch L k) (rest : List TransWord) :
    (s.ran w rest).AfterRender ch L k ∧ (s.ran w rest).cfg = s.cfg ∧
      (s.ran w rest).out = some (s.ran w rest).outNow := by
  rw [State.ran_render hw]
  exact ⟨State.BeforeRender.rendered (s := (s.accepted rest).clearOut) hready.1 hL h, rfl, rfl⟩

/-- A run of `k + 1` RENDERs of a channel, from before the `j`-th, ends after the `j + k`-th. -/
theorem runWords_renders {w : TransWord} {ch : BitVec 3} (hw : decode w = .render ch) {L : Nat} (hL : 1 ≤ L)
    (k : Nat) {s : State} {j : Nat} (hready : s.Ready) (hmax : L ≤ s.cfg.levelMax) (h : s.BeforeRender ch L j) :
    ∃ t, runWords (List.replicate (k + 1) w) s = .next t ∧ t.AfterRender ch L (j + k) ∧ t.cfg = s.cfg ∧
      t.out = some t.outNow := by
  have hwell : WellFormed (decode w) = true := by rw [hw, WellFormed]
  induction k generalizing s j with
  | zero =>
    obtain ⟨hafter, hcfg, hout⟩ := h.ran hw hL hready []
    exact ⟨_, (runWords_cons hwell hready).trans (runWords_nil _), hafter, hcfg, hout⟩
  | succ k ih =>
    obtain ⟨hafter, hcfg, -⟩ := h.ran hw hL hready (List.replicate (k + 1) w)
    obtain ⟨t, hrun, hafter', hcfg', hout⟩ := ih (State.ran_ready hwell hready) (hcfg.symm ▸ hmax)
      (hafter.beforeNext (hcfg.symm ▸ hmax))
    refine ⟨t, (runWords_cons hwell hready).trans hrun, ?_, hcfg'.trans hcfg, hout⟩
    rwa [Nat.add_right_comm] at hafter'

/-- After a pressure event of its channel the meter is before its first render. -/
theorem State.pressed_beforeRender {b2 : Byte} {c : BitVec 3} (hc : c = channelOperand b2) (s : State) :
    (s.pressed b2).BeforeRender c (min (levelOperand b2).toNat s.cfg.levelMax) 0 := by
  obtain ⟨hlevel, hdecay⟩ := pressureBody_same (pressureBody_eq_pressed b2 s)
  subst hc
  refine ⟨fun _ => ⟨?_, ?_⟩, fun hlt => ?_⟩
  · rw [hlevel]
    rfl
  · rw [hdecay]
    simp
  · simp at hlt

end Sys2Proof.Machine

namespace Sys2Proof.Proofs

open Sys2Proof.Machine

/-- Settles O33: the pressure event leaves its meter before the first render, and each render falls by one step or shows
the empty bar. -/
theorem meterFallsLinearlyToEmpty : Obligations.MeterFallsLinearlyToEmpty := by
  intro s b2 c L base k hready hc hL hpos hbase
  have hpress : decode (Asm.press b2) = .pressure b2 := decode_encode (.pressure b2)
  have hrender : decode (Asm.renderWord c) = .render c := decode_encode (.render c)
  have hwell : WellFormed (decode (Asm.press b2)) = true := by rw [hpress, WellFormed]
  have hbefore : ∀ rest, (s.ran (Asm.press b2) rest).BeforeRender c L 0 ∧
      (s.ran (Asm.press b2) rest).cfg = s.cfg := fun rest => by
    rw [State.ran, hpress, effect, hL, ← levelOperand_toNat]
    exact ⟨State.pressed_beforeRender (eq_channelOperand_iff.2 hc) _, rfl⟩
  rw [runWords_cons hwell hready]
  obtain ⟨hbefore, hcfg⟩ := hbefore (List.replicate (k + 1) (Asm.renderWord c))
  have hmax : L ≤ s.cfg.levelMax := hL ▸ Nat.min_le_right _ _
  obtain ⟨t, hrun, ⟨hlit, hempty⟩, hcfg', hout⟩ :=
    runWords_renders hrender hpos k (State.ran_ready hwell hready) (hcfg.symm ▸ hmax) hbefore
  have hbase' : levelBase t.cfg L = base := by rw [hcfg', hcfg, hbase, levelBase]
  rw [hbase', hcfg', hcfg, Nat.zero_add, Nat.mul_comm] at hlit hempty
  refine ⟨t, _, hrun, hout, fun hle => ?_, hempty⟩
  rw [Nat.mul_comm (k + 1)]
  exact hlit hle

end Sys2Proof.Proofs

/-! SUPPORT. What the two sides of the block read of each other (40_reassembler.md sections 1 and 5, 60_exceptions.md
section 5): a FEED ends alike in the reassembler and TEXT from states that agree there, and every form but a fragment
ends alike in the meters from states that agree there. -/

namespace Sys2Proof.Machine

/-! ### The meters beside SysEx traffic (R80, R92) -/

/-- A fragment leaves the meters. -/
theorem effect_fragment_meters {i : Instr} (hi : isFragment i = true) (s : State) : SameMeters s (effect i s) := by
  cases i with
  | sxCont b1 b2 b3 => exact (s.continued_frame _).2
  | sxEnd1 | sxEnd2 | sxEnd3 => exact s.ended_meters _
  | _ => simp [isFragment] at hi

/-- Any other form ends with the same meters from states with the same configuration and meters. -/
theorem effect_sameMeters {i : Instr} (hi : isFragment i = false) {s u : State} (hcfg : u.cfg = s.cfg)
    (h : SameMeters u s) : SameMeters (effect i u) (effect i s) := by
  have hchannel := State.channel_of_sameMeters h
  obtain ⟨hlevel, hdecay⟩ := h
  cases i with
  | sxCont | sxEnd1 | sxEnd2 | sxEnd3 => simp [isFragment] at hi
  | pressure b2 =>
    simp [effect, State.pressed, State.withMeter, SameMeters, hlevel, hdecay]
  | render ch =>
    obtain ⟨hl, hd⟩ := hchannel ch
    simp [effect, State.rendered, State.withMeter, SameMeters, hlevel, hdecay, hcfg, hl, hd]
  | reset => exact ⟨rfl, rfl⟩
  | _ => exact ⟨hlevel, hdecay⟩

/-! ### The reassembler and TEXT beside the render agent (R158) -/

/-- The configuration, the reassembler and TEXT are the same: what a FEED reads of a state beside the meters. -/
abbrev SameIngress (s t : State) : Prop := t.cfg = s.cfg ∧ SameReassembler s t ∧ t.text = s.text

/-- The start of a fragment reads the ingress side only. -/
theorem SameIngress.freshStart {s u : State} (h : SameIngress s u) : SameIngress s.freshStart u.freshStart := by
  obtain ⟨hcfg, ⟨hframing, hlen, hbuf⟩, htext⟩ := h
  simp only [State.freshStart, hframing]
  split <;> simp [SameIngress, SameReassembler, hcfg, hframing, hlen, hbuf, htext]

/-- Storing bytes reads the ingress side only. -/
theorem SameIngress.stored {s u : State} (h : SameIngress s u) (bs : List Byte) :
    SameIngress (s.stored bs) (u.stored bs) := by
  obtain ⟨hcfg, ⟨hframing, hlen, hbuf⟩, htext⟩ := h
  simp [State.stored, SameIngress, SameReassembler, hcfg, hframing, hlen, hbuf, htext]

/-- FramingOverflow reads the ingress side only. -/
theorem SameIngress.overflowed {s u : State} (h : SameIngress s u) : SameIngress s.overflowed u.overflowed := by
  obtain ⟨hcfg, -, htext⟩ := h
  simp [State.overflowed, SameIngress, SameReassembler, hcfg, htext]

/-- SX_CONT reads the ingress side only. -/
theorem SameIngress.continued {s u : State} (h : SameIngress s u) (bs : List Byte) :
    SameIngress (s.continued bs) (u.continued bs) := by
  have hstored := h.freshStart.stored bs
  have hoverflowed := h.overflowed
  obtain ⟨-, ⟨-, hlen, -⟩, -⟩ := h.freshStart
  obtain ⟨hcfg, -, -⟩ := h
  simp only [State.continued, hlen, hcfg]
  split
  · obtain ⟨hcfg, ⟨-, hlen', hbuf⟩, htext⟩ := hstored
    exact ⟨hcfg, ⟨rfl, hlen', hbuf⟩, htext⟩
  · exact hoverflowed

/-- What `Decode` leaves in TEXT it takes from the configuration, the message and TEXT (R100). -/
theorem State.decoded_text_congr {s u : State} (hcfg : u.cfg = s.cfg) (htext : u.text = s.text) (m : List Byte) :
    (u.decoded m).text = (s.decoded m).text := by
  by_cases hpredicate : displayPredicate s.cfg m = true
  · cases hlength : payloadLength? s.cfg m with
    | none => simp [State.decoded, hcfg, hpredicate, hlength, htext]
    | some p => simp [State.decoded, hcfg, hpredicate, hlength, State.displayed, htext]
  · simp [State.decoded, hcfg, hpredicate, htext]

/-- Completing a message reads the ingress side only. -/
theorem SameIngress.completed {s u : State} (h : SameIngress s u) (m : List Byte) :
    SameIngress (s.completed m) (u.completed m) := by
  obtain ⟨⟨hidle, hlen⟩, hbuf, -, hcfg, -⟩ := s.completed_frame m
  obtain ⟨⟨hidle', hlen'⟩, hbuf', -, hcfg', -⟩ := u.completed_frame m
  obtain ⟨hsame, -, htext⟩ := h
  refine ⟨hcfg'.trans (hsame.trans hcfg.symm),
    ⟨hidle'.trans hidle.symm, hlen'.trans hlen.symm, hbuf'.trans hbuf.symm⟩, ?_⟩
  exact State.decoded_text_congr (s := s.driveMessage m) (u := u.driveMessage m) hsame htext m

/-- The bytes below LEN are stored under the invariant, so the message does not depend on the draw (R23). -/
theorem State.message_of_lists {s u : State} (hlen : u.len = s.len) (hbuf : u.buf = s.buf)
    (hlists : s.buf.ListsBelow s.len) : u.message = s.message := by
  rw [State.message, State.message, hlen, hbuf]
  refine List.map_congr_left fun k hk => ?_
  have hlisted : (s.buf.read? (0 + k)).isSome := (hlists.isSome_read?_iff _).2 (by simpa using hk)
  obtain ⟨b, hb⟩ := Option.isSome_iff_exists.1 hlisted
  simp only [Memory.read, hb, Option.getD_some]

/-- A terminal fragment reads the ingress side only. -/
theorem SameIngress.ended {s u : State} (h : SameIngress s u) (hs : s.Inv) (bs : List Byte) :
    SameIngress (s.ended bs) (u.ended bs) := by
  obtain ⟨⟨hvalid, -⟩, ⟨-, -, -, hlists⟩, -, -⟩ := hs
  have hstored := h.stored bs
  have hoverflowed := h.overflowed
  obtain ⟨hcfg, ⟨hframing, hlen, hbuf⟩, htext⟩ := h
  obtain hfits | hover := le_or_gt (s.len + bs.length) s.cfg.cap
  · rw [State.ended_of_fits hvalid hfits, State.ended_of_fits (hcfg ▸ hvalid) (by rw [hcfg, hlen]; exact hfits),
      State.message_of_lists hlen hbuf hlists]
    refine SameIngress.completed ?_ _
    obtain ⟨hcfg', ⟨-, hlen', hbuf'⟩, htext'⟩ := hstored
    exact ⟨hcfg', ⟨rfl, hlen', hbuf'⟩, htext'⟩
  · rw [State.ended_of_overflow hover, State.ended_of_overflow (by rw [hcfg, hlen]; exact hover)]
    exact hoverflowed

/-- A FEED ends alike in the reassembler and TEXT from states that agree there. -/
theorem SameIngress.effect {i : Instr} (hi : issuedBy i = some .ingress) {s u : State} (h : SameIngress s u)
    (hs : s.Inv) : SameIngress (effect i s) (effect i u) := by
  cases i with
  | sxCont b1 b2 b3 => exact h.continued _
  | sxEnd1 | sxEnd2 | sxEnd3 => exact h.ended hs _
  | render | clrDirty | reset | rsv4 | rsv5 | rsv6 | rsv7 => simp [issuedBy] at hi
  | _ => exact h

/-- The render agent's transactions leave the reassembler and TEXT. -/
theorem effect_renderAgent {i : Instr} (hi : issuedBy i = some .renderAgent) (s : State) :
    SameIngress s (effect i s) := by
  cases i with
  | render | clrDirty => exact ⟨rfl, ⟨rfl, rfl, rfl⟩, rfl⟩
  | _ => simp [issuedBy] at hi

/-- What a role issues is a transaction. -/
theorem wellFormed_of_issuedBy {i : Instr} (hi : (issuedBy i).isSome) : WellFormed i = true := by
  cases i with
  | rsv4 | rsv5 | rsv6 | rsv7 => simp [issuedBy] at hi
  | _ => rfl

/-- In a merge without RESETs a word that is no FEED is the render agent's. -/
theorem issuedBy_of_possibleRun {ingress renders q : List TransWord} (h : PossibleRun ingress renders [] q)
    {w : TransWord} (hw : w ∈ q) :
    issuedBy (decode w) = some .ingress ∨ issuedBy (decode w) = some .renderAgent := by
  obtain ⟨-, -, hresets, hall⟩ := h
  obtain ⟨r, hr⟩ := Option.isSome_iff_exists.1 (hall w hw)
  cases r with
  | ingress => exact .inl hr
  | renderAgent => exact .inr hr
  | resetSource =>
    have hnone := List.filter_eq_nil_iff.1 hresets w hw
    simp [hr] at hnone

end Sys2Proof.Machine

namespace Sys2Proof.Proofs

open Sys2Proof.Machine

/-- Settles O45: the two runs stay ready with the same configuration and meters, since fragments leave the meters and no
other form reads anything else. -/
theorem sysExTrafficNeverDisturbsTheMeters : Obligations.SysExTrafficNeverDisturbsTheMeters := by
  intro s q hready hq
  have hsim := runWords_filter (R := fun t u => (t.Ready ∧ u.Ready) ∧ u.cfg = t.cfg ∧ SameMeters u t)
    (keep := fun w => !isFragment (decode w)) (q := q) (fun w hw => (hq w hw).1) (fun _ _ h => h.1) (fun _ _ h => h)
    ?kept ?dropped (s := s) (u := s) ⟨⟨hready, hready⟩, rfl, rfl, rfl⟩
  case kept =>
    rintro w hw hkeep t u rest rest' ⟨⟨ht, hu⟩, hcfg, hmeters⟩
    have hwell := (hq w hw).1
    obtain ⟨hcfgt, -, -⟩ := effect_host (decode w) (t.accepted rest).clearOut
    obtain ⟨hcfgu, -, -⟩ := effect_host (decode w) (u.accepted rest').clearOut
    exact ⟨⟨State.ran_ready hwell ht, State.ran_ready hwell hu⟩, hcfgu.trans (hcfg.trans hcfgt.symm),
      effect_sameMeters (by simpa using hkeep) hcfg hmeters⟩
  case dropped =>
    rintro w hw hkeep t u rest ⟨⟨ht, hu⟩, hcfg, hmeters⟩
    obtain ⟨hcfgt, -, -⟩ := effect_host (decode w) (t.accepted rest).clearOut
    obtain ⟨hlevel, hdecay⟩ := effect_fragment_meters (i := decode w) (by simpa using hkeep) (t.accepted rest).clearOut
    exact ⟨⟨State.ran_ready (hq w hw).1 ht, hu⟩, hcfg.trans hcfgt.symm, hlevel.trans hmeters.1, hdecay.trans hmeters.2⟩
  obtain ⟨t, u, ht, hu, -, -, hmeters⟩ := hsim
  exact ⟨t, u, ht, hu, hmeters⟩

/-- Settles O44: the two runs keep the invariant and agree in the reassembler and TEXT, since the render agent's words
leave these and a FEED reads nothing else. -/
theorem renderAgentNeverDisturbsIngress : Obligations.RenderAgentNeverDisturbsIngress := by
  intro s ingress renders q hinv hrun
  have ⟨hingress, _, _, hissued⟩ := hrun
  have hwell : ∀ w ∈ q, WellFormed (decode w) = true := fun w hw => wellFormed_of_issuedBy (hissued w hw)
  have hsim := runWords_filter (R := fun t u => (t.Inv ∧ u.Inv) ∧ SameIngress u t)
    (keep := fun w => issuedBy (decode w) == some .ingress) hwell (fun _ _ ⟨⟨⟨ht, _⟩, hu, _⟩, _⟩ => ⟨ht, hu⟩)
    (fun _ _ h => h)
    ?kept ?dropped (s := s) (u := s) ⟨⟨hinv, hinv⟩, rfl, ⟨rfl, rfl, rfl⟩, rfl⟩
  case kept =>
    rintro w hw hkeep t u rest rest' ⟨⟨ht, hu⟩, hsame⟩
    have hsame' : SameIngress (u.accepted rest').clearOut (t.accepted rest).clearOut := hsame
    exact ⟨⟨effect_inv (s := t.accepted rest) (hwell w hw) ht, effect_inv (s := u.accepted rest') (hwell w hw) hu⟩,
      hsame'.effect (by simpa using hkeep) hu⟩
  case dropped =>
    rintro w hw hkeep t u rest ⟨⟨ht, hu⟩, hcfg, ⟨hframing, hlen, hbuf⟩, htext⟩
    have hagent : issuedBy (decode w) = some .renderAgent :=
      (issuedBy_of_possibleRun hrun hw).resolve_left (by simpa using hkeep)
    obtain ⟨hcfg', ⟨hframing', hlen', hbuf'⟩, htext'⟩ := effect_renderAgent hagent (t.accepted rest).clearOut
    exact ⟨⟨effect_inv (s := t.accepted rest) (hwell w hw) ht, hu⟩, hcfg'.trans hcfg,
      ⟨hframing'.trans hframing, hlen'.trans hlen, hbuf'.trans hbuf⟩, htext'.trans htext⟩
  obtain ⟨t, u, ht, hu, -, -, hreassembler, htext⟩ := hsim
  exact ⟨t, u, ht, hingress ▸ hu, hreassembler, htext⟩

end Sys2Proof.Proofs

/-! SUPPORT. The packets of a message (40_reassembler.md section 5): a run of them accumulates the message byte for
byte, whatever transactions of other kinds come between, and drops it at the first packet that passes CAP. -/

namespace Sys2Proof.Machine

/-! ### The packets of a message (R75) -/

/-- The packets of a message of bytes: a terminal fragment of all of it, or a SX_CONT of its first three bytes and the
packets of the rest. -/
theorem sysex_cases {m : List Byte} (hm : m ≠ []) :
    (∃ i, terminalBytes i = some m ∧ Asm.sysex m = [encode i]) ∨
    (∃ a b c rest, rest ≠ [] ∧ m = a :: b :: c :: rest ∧
      Asm.sysex m = encode (.sxCont a b c) :: Asm.sysex rest) := by
  match m with
  | [] => exact absurd rfl hm
  | [a] => exact .inl ⟨.sxEnd1 a, rfl, rfl⟩
  | [a, b] => exact .inl ⟨.sxEnd2 a b, rfl, rfl⟩
  | [a, b, c] => exact .inl ⟨.sxEnd3 a b c, rfl, rfl⟩
  | a :: b :: c :: d :: rest => exact .inr ⟨a, b, c, d :: rest, List.cons_ne_nil _ _, rfl, rfl⟩

/-- A message of bytes has a packet. -/
theorem sysex_ne_nil {m : List Byte} (hm : m ≠ []) : Asm.sysex m ≠ [] := by
  obtain ⟨i, -, h⟩ | ⟨a, b, c, rest, -, -, h⟩ := sysex_cases hm <;> simp [h]

/-- A terminal fragment carries at most three bytes. -/
theorem terminalBytes_length_le {i : Instr} {bs : List Byte} (hi : terminalBytes i = some bs) : bs.length ≤ 3 := by
  cases i with
  | sxEnd1 | sxEnd2 | sxEnd3 =>
    obtain rfl := Option.some.inj hi
    simp
  | _ => simp [terminalBytes] at hi

/-- A message of more than three bytes starts with a SX_CONT. -/
theorem sysex_of_long {m : List Byte} (hm : 3 < m.length) : ∃ a b c rest, rest ≠ [] ∧ m = a :: b :: c :: rest ∧
    Asm.sysex m = encode (.sxCont a b c) :: Asm.sysex rest := by
  obtain ⟨i, hi, -⟩ | hcont := sysex_cases (List.ne_nil_of_length_pos (by omega : 0 < m.length))
  · have := terminalBytes_length_le hi
    omega
  · exact hcont

/-! ### The bytes accumulated so far (R91) -/

/-- The block holds exactly the bytes `acc` of a message under way; in Idle there is none. -/
def State.Holds (acc : List Byte) (s : State) : Prop :=
  (s.framing = .idle → acc = []) ∧ s.len = acc.length ∧ ∀ a < acc.length, s.buf.read? a = acc[a]?

/-- The held bytes are the message, whatever the draw. -/
theorem State.Holds.message {acc : List Byte} {s : State} (h : s.Holds acc) : s.message = acc := by
  obtain ⟨-, hlen, hread⟩ := h
  refine List.ext_getElem (by simp [State.message, hlen]) fun k _ hk => ?_
  simp [State.message, Memory.readList, Memory.read, hread k hk, hk]

/-- Bytes that are held start at the held length: in Idle nothing is held. -/
theorem State.Holds.freshStart_len {acc : List Byte} {s : State} (hready : s.Ready) (h : s.Holds acc) :
    s.freshStart.len = acc.length := by
  obtain ⟨hidle, hlen, -⟩ := h
  rw [State.freshStart_len_of_ready hready]
  split
  · next hframing => simp [hidle hframing]
  · exact hlen

/-- SX_CONT of bytes that fit holds them behind those held before (R82). -/
theorem State.Holds.continued {acc bs : List Byte} {s : State} (hready : s.Ready) (h : s.Holds acc)
    (hfits : acc.length + bs.length ≤ s.cfg.cap) : (s.continued bs).Holds (acc ++ bs) := by
  have hstart := h.freshStart_len hready
  obtain ⟨-, -, hread⟩ := h
  have hfits' : s.freshStart.len + bs.length ≤ s.cfg.cap := hstart.symm ▸ hfits
  rw [State.continued_of_fits hfits']
  refine ⟨by simp, ?_, fun a ha => ?_⟩
  · rw [State.setFraming_len, State.stored_len (s.freshStart_cfg.symm ▸ hready.1) (s.freshStart_cfg.symm ▸ hfits'),
      hstart, List.length_append]
  · rw [State.setFraming_buf, State.stored_buf_read?, hstart]
    split
    · next hold =>
      rw [State.freshStart_buf_read? (hstart.symm ▸ hold), hread a hold, List.getElem?_append_left hold]
    · next hnew => rw [List.getElem?_append_right (Nat.le_of_not_lt hnew)]

/-- Forms that are neither fragments nor RESET leave the reassembler (R92). -/
theorem effect_sameReassembler {i : Instr} (hi : isFragment i = false) (hreset : i ≠ .reset) (s : State) :
    SameReassembler s (effect i s) := by
  cases i with
  | sxCont | sxEnd1 | sxEnd2 | sxEnd3 => simp [isFragment] at hi
  | reset => exact absurd rfl hreset
  | _ => exact ⟨rfl, rfl, rfl⟩

/-- Such a word leaves what is held. -/
theorem State.Holds.ran {acc : List Byte} {s : State} (h : s.Holds acc) {w : TransWord}
    (hw : isFragment (decode w) = false) (hreset : decode w ≠ .reset) (rest : List TransWord) :
    (s.ran w rest).Holds acc := by
  obtain ⟨hframing, hlen, hbuf⟩ := effect_sameReassembler hw hreset (s.accepted rest).clearOut
  rw [State.ran, State.Holds, hframing, hlen, hbuf]
  exact h

/-! ### A message that fits (R91, R92) -/

/-- A run of one terminal fragment that fits ends re-armed, with the held bytes and its own as the completed message. -/
theorem runWords_terminal {i : Instr} {bs acc : List Byte} {s : State} (hi : terminalBytes i = some bs)
    (hready : s.Ready) (h : s.Holds acc) (hfits : acc.length + bs.length ≤ s.cfg.cap) :
    ∃ t o, runWords [encode i] s = .next t ∧ t.Rearmed ∧ t.out = some o ∧ o.msgValid = true ∧
      o.msg = acc ++ bs ∧ o.msgLen = (acc ++ bs).length := by
  have hwell := wellFormed_decode_encode (wellFormed_of_terminalBytes hi)
  have hmessage : (s.accepted []).clearOut.message = acc := State.Holds.message (s := (s.accepted []).clearOut) h
  obtain ⟨-, hlen, -⟩ := h
  have hfits' : (s.accepted []).clearOut.len + bs.length ≤ (s.accepted []).clearOut.cfg.cap := hlen.symm ▸ hfits
  have hran : s.ran (encode i) [] = ((s.accepted []).clearOut.terminated bs).completed (acc ++ bs) := by
    rw [State.ran, decode_encode, effect_of_terminalBytes hi,
      State.ended_of_fits (s := (s.accepted []).clearOut) hready.1 hfits', hmessage]
  obtain ⟨hrearmed, -, -, -⟩ := ((s.accepted []).clearOut.terminated bs).completed_frame (acc ++ bs)
  obtain ⟨c, w, hout, -⟩ := State.completed_out (s := (s.accepted []).clearOut.terminated bs) (m := acc ++ bs)
    hready.1 (by rw [List.length_append]; exact hfits)
  rw [runWords_cons hwell hready, hran, runWords_nil]
  exact ⟨_, _, rfl, hrearmed, hout, rfl, rfl, rfl⟩

/-- A run whose fragments are the packets of `m`, the last word among them, completes the held bytes followed by `m`. -/
theorem runWords_interleaved (q : List TransWord) {last : TransWord} (hlast : isFragment (decode last) = true)
    (hq : ∀ w ∈ q, WellFormed (decode w) = true ∧ decode w ≠ .reset) {s : State} {acc m : List Byte}
    (hready : s.Ready) (h : s.Holds acc) (hm : m ≠ []) (hfits : acc.length + m.length ≤ s.cfg.cap)
    (hpackets : (q ++ [last]).filter (fun w => isFragment (decode w)) = Asm.sysex m) :
    ∃ t o, runWords (q ++ [last]) s = .next t ∧ t.Rearmed ∧ t.out = some o ∧ o.msgValid = true ∧
      o.msg = acc ++ m ∧ o.msgLen = (acc ++ m).length := by
  induction q generalizing s acc m with
  | nil =>
    rw [List.nil_append, List.filter_cons_of_pos (p := fun w => isFragment (decode w)) hlast,
      List.filter_nil] at hpackets
    obtain ⟨i, hi, hsysex⟩ | ⟨a, b, c, rest, hrest, -, hsysex⟩ := sysex_cases hm
    · obtain rfl := List.singleton_inj.1 (hpackets.trans hsysex)
      exact runWords_terminal hi hready h hfits
    · exact absurd (List.cons.inj (hpackets.trans hsysex)).2.symm (sysex_ne_nil hrest)
  | cons w q ih =>
    obtain ⟨hwell, hreset⟩ := hq w List.mem_cons_self
    have ih := fun {s acc m} => ih (fun x hx => hq x (List.mem_cons_of_mem _ hx)) (s := s) (acc := acc) (m := m)
    rw [List.cons_append, runWords_cons hwell hready]
    rw [List.cons_append] at hpackets
    have hready' := State.ran_ready (rest := q ++ [last]) hwell hready
    obtain ⟨hcfg, -, -⟩ := effect_host (decode w) (s.accepted (q ++ [last])).clearOut
    have hcfg' : (s.ran w (q ++ [last])).cfg = s.cfg := hcfg
    cases hfragment : isFragment (decode w) with
    | false =>
      rw [List.filter_cons_of_neg (by simp [hfragment])] at hpackets
      exact ih hready' (h.ran hfragment hreset _) hm (hcfg'.symm ▸ hfits) hpackets
    | true =>
      rw [List.filter_cons_of_pos (p := fun w => isFragment (decode w)) hfragment] at hpackets
      obtain ⟨i, -, hsysex⟩ | ⟨a, b, c, rest, hrest, rfl, hsysex⟩ := sysex_cases hm
      · -- the last word is one more packet than a terminal fragment leaves
        have hnone := (List.cons.inj (hpackets.trans hsysex)).2
        simp [hlast] at hnone
      · obtain ⟨rfl, hrestPackets⟩ := List.cons.inj (hpackets.trans hsysex)
        simp only [List.length_cons] at hfits
        have hholds : (s.ran (encode (.sxCont a b c)) (q ++ [last])).Holds (acc ++ [a, b, c]) := by
          rw [State.ran, decode_encode, effect]
          refine State.Holds.continued (s := (s.accepted (q ++ [last])).clearOut) hready h ?_
          simp only [List.length_cons, List.length_nil]
          exact Nat.le_trans (by omega) hfits
        have hlength : (acc ++ [a, b, c]).length + rest.length ≤
            (s.ran (encode (.sxCont a b c)) (q ++ [last])).cfg.cap := by
          rw [hcfg']
          simp only [List.length_append, List.length_cons, List.length_nil]
          omega
        have hdone := ih hready' hholds hrest hlength hrestPackets
        rwa [List.append_assoc] at hdone

/-! ### A message longer than CAP (R91) -/

/-- A fragment is appended at `n`, in Idle as in Accumulating. -/
def State.AppendsAt (n : Nat) (s : State) : Prop := s.Ready ∧ s.len = n ∧ s.freshStart.len = n

/-- A message is under way with `n` bytes, and the last transaction had nothing to report. -/
def State.AccumulatingAt (n : Nat) (s : State) : Prop :=
  s.Ready ∧ s.framing = .accumulating ∧ s.len = n ∧ s.out = some Out.zero

/-- The next fragment of a message under way is appended at LEN. -/
theorem State.AccumulatingAt.appendsAt {n : Nat} {s : State} (h : s.AccumulatingAt n) : s.AppendsAt n := by
  obtain ⟨hready, hframing, hlen, -⟩ := h
  exact ⟨hready, hlen, by simp [State.freshStart_len_of_ready hready, hframing, hlen]⟩

/-- From Idle with an empty buffer a fragment is appended at 0. -/
theorem State.appendsAt_zero {s : State} (hready : s.Ready) (hidle : s.framing = .idle) (hlen : s.len = 0) :
    s.AppendsAt 0 :=
  ⟨hready, hlen, by simp [State.freshStart_len_of_ready hready, hidle]⟩

/-- Accepting a word does not move the place where a fragment is appended. -/
theorem State.accepted_freshStart_len (rest : List TransWord) (s : State) :
    (s.accepted rest).clearOut.freshStart.len = s.freshStart.len := by
  have hframing : (s.accepted rest).clearOut.framing = s.framing := rfl
  simp only [State.freshStart, hframing]
  split <;> rfl

/-- A SX_CONT word that fits is accumulated. -/
theorem State.AppendsAt.ran_fits {n : Nat} {s : State} (h : s.AppendsAt n) (a b c : Byte)
    (hfits : n + 3 ≤ s.cfg.cap) (rest : List TransWord) :
    (s.ran (encode (.sxCont a b c)) rest).AccumulatingAt (n + 3) ∧
      (s.ran (encode (.sxCont a b c)) rest).cfg = s.cfg := by
  obtain ⟨hready, -, hstart⟩ := h
  have hwell := wellFormed_decode_encode (i := .sxCont a b c) rfl
  have hready' := State.ran_ready (rest := rest) hwell hready
  have hstart' : (s.accepted rest).clearOut.freshStart.len = n := (s.accepted_freshStart_len rest).trans hstart
  obtain ⟨⟨hcfg, -, -⟩, hout⟩ := (s.accepted rest).clearOut.freshStart_host
  have hfits' : (s.accepted rest).clearOut.freshStart.len + [a, b, c].length ≤ s.cfg.cap := by
    rw [hstart']
    exact hfits
  rw [State.ran, decode_encode, effect, State.continued_of_fits hfits'] at hready' ⊢
  refine ⟨⟨hready', rfl, ?_, hout⟩, hcfg⟩
  rw [State.setFraming_len, State.stored_len (hcfg.symm ▸ hready.1) (hcfg.symm ▸ hfits'), hstart']
  rfl

/-- The first packets of a message are accumulated while they fit. -/
theorem runWords_take_fits (k : Nat) {n : Nat} {m : List Byte} {s : State} (h : s.AppendsAt n)
    (hfits : n + 3 * (k + 1) ≤ s.cfg.cap) (hm : 3 * (k + 1) < m.length) :
    ∃ t, runWords ((Asm.sysex m).take (k + 1)) s = .next t ∧ t.AccumulatingAt (n + 3 * (k + 1)) := by
  induction k generalizing n m s with
  | zero =>
    obtain ⟨a, b, c, rest, -, -, hsysex⟩ := sysex_of_long (m := m) (by omega)
    have hwell := wellFormed_decode_encode (i := .sxCont a b c) rfl
    obtain ⟨hacc, -⟩ := h.ran_fits a b c hfits []
    rw [hsysex, List.take_succ_cons, List.take_zero, runWords_cons hwell h.1, runWords_nil]
    exact ⟨_, rfl, hacc⟩
  | succ k ih =>
    obtain ⟨a, b, c, rest, -, rfl, hsysex⟩ := sysex_of_long (m := m) (by omega)
    have hwell := wellFormed_decode_encode (i := .sxCont a b c) rfl
    obtain ⟨hacc, hcfg⟩ := h.ran_fits a b c (by omega) ((Asm.sysex rest).take (k + 1))
    simp only [List.length_cons] at hm
    rw [hsysex, List.take_succ_cons, runWords_cons hwell h.1]
    obtain ⟨t, hrun, hacc'⟩ := ih hacc.appendsAt (m := rest) (by rw [hcfg]; omega) (by omega)
    have hcount : n + 3 + 3 * (k + 1) = n + 3 * (k + 1 + 1) := by omega
    exact ⟨t, hrun, hcount ▸ hacc'⟩

/-- A packet whose bytes do not fit drops the message. -/
theorem State.AppendsAt.ran_overflows {n : Nat} {s : State} (h : s.AppendsAt n) {m : List Byte} (hm : m ≠ [])
    (hover : s.cfg.cap < n + m.length) (hfull : s.cfg.cap < n + 3) : ∃ w rest, Asm.sysex m = w :: rest ∧
      WellFormed (decode w) = true ∧ s.ran w [] = (s.accepted []).clearOut.overflowed := by
  obtain ⟨-, hlen, hstart⟩ := h
  obtain ⟨i, hi, hsysex⟩ | ⟨a, b, c, rest, -, -, hsysex⟩ := sysex_cases hm
  · refine ⟨_, _, hsysex, wellFormed_decode_encode (wellFormed_of_terminalBytes hi), ?_⟩
    rw [State.ran, decode_encode, effect_of_terminalBytes hi]
    exact State.ended_of_overflow (s := (s.accepted []).clearOut) (hlen.symm ▸ hover)
  · refine ⟨_, _, hsysex, wellFormed_decode_encode rfl, ?_⟩
    rw [State.ran, decode_encode, effect]
    have hstart' : (s.accepted []).clearOut.freshStart.len = n := (s.accepted_freshStart_len []).trans hstart
    refine State.continued_of_overflow ?_
    rw [hstart']
    exact hfull

/-- Of a message that does not fit, the packet after the last that fits drops it. -/
theorem runWords_take_overflow (j : Nat) {n : Nat} {m : List Byte} {s : State} (h : s.AppendsAt n)
    (hfits : n + 3 * j ≤ s.cfg.cap) (hfull : s.cfg.cap < n + 3 * (j + 1)) (hover : s.cfg.cap < n + m.length) :
    ∃ t, runWords ((Asm.sysex m).take (j + 1)) s = .next t ∧ t.Rearmed ∧
      t.out = some { Out.zero with cond := .framingOverflow } := by
  induction j generalizing n m s with
  | zero =>
    obtain ⟨w, rest, hsysex, hwell, hran⟩ :=
      h.ran_overflows (List.ne_nil_of_length_pos (by omega : 0 < m.length)) hover hfull
    rw [hsysex, List.take_succ_cons, List.take_zero, runWords_cons hwell h.1, hran, runWords_nil]
    exact ⟨_, rfl, State.overflowed_rearmed _, rfl⟩
  | succ j ih =>
    obtain ⟨a, b, c, rest, -, rfl, hsysex⟩ := sysex_of_long (m := m) (by omega)
    have hwell := wellFormed_decode_encode (i := .sxCont a b c) rfl
    obtain ⟨hacc, hcfg⟩ := h.ran_fits a b c (by omega) ((Asm.sysex rest).take (j + 1))
    simp only [List.length_cons] at hover
    rw [hsysex, List.take_succ_cons, runWords_cons hwell h.1]
    exact ih hacc.appendsAt (by rw [hcfg]; omega) (by rw [hcfg]; omega) (by rw [hcfg]; omega)

end Sys2Proof.Machine

namespace Sys2Proof.Proofs

open Sys2Proof.Machine

/-- Settles O21: nothing is held in Idle with LEN = 0, and the run completes what is held followed by the message. -/
theorem interleavedMessageIsReassembled : Obligations.InterleavedMessageIsReassembled := by
  intro s m q last hready hidle hlen hm hcap hpackets hlast hq
  have hholds : s.Holds [] := ⟨fun _ => rfl, hlen, fun a ha => absurd ha (Nat.not_lt_zero a)⟩
  obtain ⟨t, o, hrun, ⟨hidle', hlen'⟩, hout, hvalid, hmsg, hmsgLen⟩ :=
    runWords_interleaved q hlast hq hready hholds hm (by simpa using hcap) hpackets
  exact ⟨t, o, hrun, hidle', hlen', hout, hvalid, hmsg, hmsgLen⟩

/-- Settles O22: CAP/3 packets of three bytes fit, and the next one passes CAP. -/
theorem overlongMessageOverflowsAtTheCapacity : Obligations.OverlongMessageOverflowsAtTheCapacity := by
  intro s m hready hidle hlen hm
  have hstart := State.appendsAt_zero hready hidle hlen
  refine ⟨fun k hpos hk => ?_, ?_⟩
  · obtain ⟨k, rfl⟩ : ∃ j, k = j + 1 := ⟨k - 1, by omega⟩
    obtain ⟨t, hrun, -, hframing, hlen', hout⟩ := runWords_take_fits k (m := m) hstart (by omega) (by omega)
    exact ⟨t, hrun, hframing, by simpa using hlen', hout⟩
  · obtain ⟨t, hrun, ⟨hidle', hlen'⟩, hout⟩ :=
      runWords_take_overflow (s.cfg.cap / 3) (m := m) hstart (by omega) (by omega) (by omega)
    exact ⟨t, hrun, hidle', hlen', hout⟩

end Sys2Proof.Proofs
